-- ==== Sys2Proof/Word.lean ====
section
/-! DEFINITION. The two word widths of the block (`spec/00_scope.md` R9): a Byte of 8 bits and a 16-bit
word (`U16`, and the pattern of an `I16`). Coordinates and counts are unbounded `Int` and `Nat`, as R9 asks
of every rule's arithmetic. -/

namespace Sys2Proof

/-- R9: a `Byte` is an 8-bit unsigned value 0..255. -/
abbrev Byte := BitVec 8

/-- R9: a `U16` is a 16-bit unsigned value; an `I16` is carried by its two's-complement pattern (R22). -/
abbrev U16 := BitVec 16

end Sys2Proof
end

