-- ==== Sys2Proof/Machine/Operands.lean ====
section
/-! DEFINITION. Bit fields, byte order, operand forms and geometry: the helpers R10, R15, R61, R62, R69,
R94, R186 and R203 name, and nothing that reads the machine's state. -/

namespace Sys2Proof.Machine

/-- R10: `lo(v) = v mod 256`. -/
def lo (v : U16) : Byte := v.setWidth 8

/-- R10: `hi(v) = v div 256`. -/
def hi (v : U16) : Byte := (v >>> 8).setWidth 8

/-- R91, R69: a 16-bit value from its two Bytes, the low Byte first. -/
def joinBytes (l h : Byte) : U16 := h ++ l

/-- R22, R94: a Byte operand occupies the low 8 bits of its latch, the high 8 bits zero. -/
def byteOperand (b : Byte) : U16 := b.setWidth 16

/-- R94: an `I16` operand is the signed value of its 16-bit pattern. -/
def signed (v : U16) : Int := v.toInt

/-- R94, R15: a colour operand uses bit 0 only, 0 White and 1 Black. -/
def colourBit (c : Byte) : Bool := c.getLsbD 0

/-- R94, R208: a rotation operand uses bits 1:0. -/
def rotationBits (r : Byte) : BitVec 2 := r.setWidth 2

/-- R10: `rep8(c)`, the Byte whose eight bits all equal `c`. -/
def rep8 (c : Bool) : Byte := if c then 0xFF else 0x00

/-- R152: `e = min(em, 3)`, the entry mode is clamped and never rejected. -/
def clampEntryMode (em : Byte) : BitVec 2 := if em.toNat < 3 then em.setWidth 2 else 3

/-- R61: `idx(px, py) = py·16 + px div 8`. -/
def pixelIndex (px py : Nat) : Nat := py * 16 + px / 8

/-- R62: `mask(px) = 0x80 >> (px mod 8)`: the pixel with the smaller x is the more significant bit. -/
def pixelMask (px : Nat) : Byte := (0x80 : Byte) >>> (px % 8)

/-- R201, R204: a physical pair that addresses the framebuffer. -/
def inBounds (p : Int × Int) : Bool := decide (0 ≤ p.1 ∧ p.1 < 128 ∧ 0 ≤ p.2 ∧ p.2 < 250)

/-- R203: the spec's default rotation transform, over `Int`. -/
def defaultRotation (r : BitVec 2) (x y : Int) : Int × Int :=
  match r.toNat with
  | 0 => (x, y)
  | 1 => (121 - y, x)
  | 2 => (121 - x, 249 - y)
  | _ => (y, 249 - x)

/-- A rectangle of panel RAM: byte columns `xsb..xeb`, rows `ys..ye` (R186). -/
structure Rect where
  xsb : Nat
  xeb : Nat
  ys : Nat
  ye : Nat
  deriving DecidableEq, Repr

/-- R186: clipping to the physical 128 × 250 and widening to byte columns; `none` is the empty rectangle. -/
def clip (x y w h : Nat) : Option Rect :=
  if w = 0 ∨ h = 0 ∨ 128 ≤ x ∨ 250 ≤ y then none
  else
    let xe := min 128 (x + w) - 1
    let ye := min 250 (y + h) - 1
    some { xsb := x / 8, xeb := xe / 8, ys := y, ye := ye }

/-- R185: the number of Bytes in each of UPDWIN's two streams. -/
def Rect.bytes (r : Rect) : Nat := (r.xeb - r.xsb + 1) * (r.ye - r.ys + 1)

/-- R11: an ascending inclusive range, empty when `a > b`. -/
def upTo (a b : Nat) : List Nat := List.range' a (b + 1 - a)

/-- A RAM window as it is sent: X start and end in byte columns, Y start and end in rows (R151). -/
structure Window where
  xs : Byte
  xe : Byte
  ys : U16
  ye : U16
  deriving DecidableEq, Repr

/-- R152: the full-panel window for an entry mode; the start is the corner the counter starts from. -/
def entryWindow (e : BitVec 2) : Window :=
  { xs := if e.getLsbD 0 then 0 else 15, xe := if e.getLsbD 0 then 15 else 0
    ys := if e.getLsbD 1 then 0 else 249, ye := if e.getLsbD 1 then 249 else 0 }

/-- R151, R185: the window of a clipped rectangle. -/
def Rect.window (r : Rect) : Window :=
  { xs := BitVec.ofNat 8 r.xsb, xe := BitVec.ofNat 8 r.xeb
    ys := BitVec.ofNat 16 r.ys, ye := BitVec.ofNat 16 r.ye }

/-- R30: how many Bytes a window holds, `(|WXE - WXS| + 1)·(|WYE - WYS| + 1)`. -/
def Window.bytes (w : Window) : Nat :=
  (((w.xe.toNat : Int) - w.xs.toNat).natAbs + 1) * (((w.ye.toNat : Int) - w.ys.toNat).natAbs + 1)

end Sys2Proof.Machine
end

