-- ==== Sys2Proof/Syntax.lean ====
section
/-! DEFINITION. The instructions: one constructor per row of `spec/opcode_table.json`. The first 22 are the
host operations of R93, with the operands R91 lays out; the last 20 are the panel commands of R96, one Byte
each with no operand (R95: the number of data Bytes is not encoded anywhere). -/

namespace Sys2Proof

/-- The 42 rows of the opcode table. -/
inductive Instr where
  /-- R131 -/
  | reset
  /-- R132 -/
  | wcmd (b : Byte)
  /-- R133 -/
  | wdat (b : Byte)
  /-- R134: the count `n` and the `n` Bytes. -/
  | wdatn (n : U16) (ds : List Byte)
  /-- R135 -/
  | waitb
  /-- R155 -/
  | initdisp (em : Byte)
  /-- R156 -/
  | setem (em : Byte)
  /-- R157 -/
  | initfull (em : Byte)
  /-- R158 -/
  | initpart (em : Byte)
  /-- R159 -/
  | updfull
  /-- R160 -/
  | updpart
  /-- R161 -/
  | pwron
  /-- R162 -/
  | pwroff
  /-- R180 -/
  | init
  /-- R182 -/
  | update
  /-- R185 -/
  | updwin (x y w h : U16)
  /-- R188 -/
  | erase
  /-- R200: bit 0 is the colour. -/
  | fill (c : Byte)
  /-- R204: `x`, `y` are I16 patterns. -/
  | pixel (x y : U16) (c : Byte)
  /-- R206 -/
  | getpix (x y : U16)
  /-- R208 -/
  | setrot (r : Byte)
  /-- R220 -/
  | clrf
  /-- R230, 0x01 -/
  | pDriverOutput
  /-- R231, 0x03 -/
  | pGateVoltage
  /-- R232, 0x04 -/
  | pSourceVoltage
  /-- R233, 0x11 -/
  | pDataEntryMode
  /-- R234, 0x12 -/
  | pSwReset
  /-- R235, 0x20 -/
  | pActivate
  /-- R236, 0x22 -/
  | pUpdateControl
  /-- R237, 0x24 -/
  | pRamWriteCurrent
  /-- R238, 0x26 -/
  | pRamWritePrevious
  /-- R239, 0x2C -/
  | pVcom
  /-- R240, 0x32 -/
  | pLut
  /-- R241, 0x3A -/
  | pTimingA
  /-- R242, 0x3B -/
  | pTimingB
  /-- R243, 0x3C -/
  | pBorder
  /-- R244, 0x44 -/
  | pRamXWindow
  /-- R245, 0x45 -/
  | pRamYWindow
  /-- R246, 0x4E -/
  | pRamXCounter
  /-- R247, 0x4F -/
  | pRamYCounter
  /-- R248, 0x74 -/
  | pAnalogBlock
  /-- R249, 0x7E -/
  | pDigitalBlock
  deriving DecidableEq, Repr

end Sys2Proof
end

