-- ==== Sys2Proof/WellFormed.lean ====
section
/-! DEFINITION. Which instructions are legal (`spec/30_encoding.md` R102, R91): the checks on operands that
the packet's shape alone does not settle. -/

namespace Sys2Proof

/-- R102: FILL and PIXEL with colour bits 7:1 not all zero and SETROT with an operand above 3 are illegal;
R91: WDATN carries exactly the `n` Bytes its count names. The entry mode is never illegal. -/
def Instr.wellFormed : Instr → Bool
  | .wdatn n ds => ds.length == n.toNat
  | .fill c => decide (c.toNat < 2)
  | .pixel _ _ c => decide (c.toNat < 2)
  | .setrot r => decide (r.toNat ≤ 3)
  | .reset | .wcmd _ | .wdat _ | .waitb => true
  | .initdisp _ | .setem _ | .initfull _ | .initpart _ => true
  | .updfull | .updpart | .pwron | .pwroff => true
  | .init | .update | .updwin _ _ _ _ | .erase => true
  | .getpix _ _ | .clrf => true
  | .pDriverOutput | .pGateVoltage | .pSourceVoltage | .pDataEntryMode | .pSwReset => true
  | .pActivate | .pUpdateControl | .pRamWriteCurrent | .pRamWritePrevious | .pVcom => true
  | .pLut | .pTimingA | .pTimingB | .pBorder | .pRamXWindow => true
  | .pRamYWindow | .pRamXCounter | .pRamYCounter | .pAnalogBlock | .pDigitalBlock => true

end Sys2Proof
end

