-- ==== Sys2Proof/Decode.lean ====
section
/-! DEFINITION. The two encodings of the machine (`spec/30_encoding.md`): the host operation packet (R90,
R91, R93, R94, R101, R102) and the panel command Byte (R95, R96), each decoded totally, and the encoder. A
refused packet is `none`; which check refuses it is named by `packetProblem`. -/

namespace Sys2Proof

open Machine

/-- R91, format H0: the opcode alone. -/
def operandsH0 (i : Instr) : List Byte → Option Instr
  | [] => some i
  | _ => none

/-- R91, format H1: one Byte. -/
def operandsH1 (k : Byte → Instr) : List Byte → Option Instr
  | [b] => some (k b)
  | _ => none

/-- R91, format HN: a 16-bit count, low Byte first, then exactly that many Bytes. -/
def operandsHN (k : U16 → List Byte → Instr) : List Byte → Option Instr
  | l :: h :: ds => if ds.length = (joinBytes l h).toNat then some (k (joinBytes l h) ds) else none
  | _ => none

/-- R91, format H2W: two 16-bit operands, low Byte first. -/
def operandsH2W (k : U16 → U16 → Instr) : List Byte → Option Instr
  | [xl, xh, yl, yh] => some (k (joinBytes xl xh) (joinBytes yl yh))
  | _ => none

/-- R91, format H2W1: two 16-bit operands and one Byte. -/
def operandsH2W1 (k : U16 → U16 → Byte → Instr) : List Byte → Option Instr
  | [xl, xh, yl, yh, c] => some (k (joinBytes xl xh) (joinBytes yl yh) c)
  | _ => none

/-- R91, format H4W: four 16-bit operands. -/
def operandsH4W (k : U16 → U16 → U16 → U16 → Instr) : List Byte → Option Instr
  | [xl, xh, yl, yh, wl, wh, hl, hh] =>
    some (k (joinBytes xl xh) (joinBytes yl yh) (joinBytes wl wh) (joinBytes hl hh))
  | _ => none

/-- R93: the host opcodes and their formats; any other opcode is reserved (R101). -/
def decodeOperation (op : Byte) (body : List Byte) : Option Instr :=
  match op.toNat with
  | 0x81 => operandsH0 .reset body
  | 0x82 => operandsH1 .wcmd body
  | 0x83 => operandsH1 .wdat body
  | 0x84 => operandsHN .wdatn body
  | 0x85 => operandsH0 .waitb body
  | 0x90 => operandsH1 .initdisp body
  | 0x91 => operandsH1 .setem body
  | 0x92 => operandsH1 .initfull body
  | 0x93 => operandsH1 .initpart body
  | 0x94 => operandsH0 .updfull body
  | 0x95 => operandsH0 .updpart body
  | 0x96 => operandsH0 .pwron body
  | 0x97 => operandsH0 .pwroff body
  | 0xA0 => operandsH0 .init body
  | 0xA1 => operandsH0 .update body
  | 0xA2 => operandsH4W .updwin body
  | 0xA3 => operandsH0 .erase body
  | 0xB0 => operandsH1 .fill body
  | 0xB1 => operandsH2W1 .pixel body
  | 0xB2 => operandsH2W .getpix body
  | 0xB3 => operandsH1 .setrot body
  | 0xF0 => operandsH0 .clrf body
  | _ => none

/-- R90, R92, R102: the operation a host packet presents; `none` for an illegal packet (reserved opcode,
wrong length, non-zero reserved colour bits, rotation above 3, no Byte at all). -/
def decodePacket : List Byte → Option Instr
  | [] => none
  | op :: body => (decodeOperation op body).filter Instr.wellFormed

/-- R95, R96: the panel command a Byte sent with DC at command-select stands for; `none` for the Bytes D00
does not list (R100: the block gives them no meaning). -/
def decodePanel (b : Byte) : Option Instr :=
  match b.toNat with
  | 0x01 => some .pDriverOutput
  | 0x03 => some .pGateVoltage
  | 0x04 => some .pSourceVoltage
  | 0x11 => some .pDataEntryMode
  | 0x12 => some .pSwReset
  | 0x20 => some .pActivate
  | 0x22 => some .pUpdateControl
  | 0x24 => some .pRamWriteCurrent
  | 0x26 => some .pRamWritePrevious
  | 0x2C => some .pVcom
  | 0x32 => some .pLut
  | 0x3A => some .pTimingA
  | 0x3B => some .pTimingB
  | 0x3C => some .pBorder
  | 0x44 => some .pRamXWindow
  | 0x45 => some .pRamYWindow
  | 0x4E => some .pRamXCounter
  | 0x4F => some .pRamYCounter
  | 0x74 => some .pAnalogBlock
  | 0x7E => some .pDigitalBlock
  | _ => none

/-- Both encodings together. "All host opcodes are >= 0x80 and all panel opcodes are <= 0x7E, so a byte value
never means both" (R93): one Byte that is a listed panel opcode is that command, all else is a packet. -/
def decode (bs : List Byte) : Option Instr :=
  match bs with
  | [b] => (decodePanel b).or (decodePacket [b])
  | _ => decodePacket bs

/-- R93, R96: the opcode Byte of each row. -/
def opcodeOf : Instr → Byte
  | .reset => 0x81
  | .wcmd _ => 0x82
  | .wdat _ => 0x83
  | .wdatn _ _ => 0x84
  | .waitb => 0x85
  | .initdisp _ => 0x90
  | .setem _ => 0x91
  | .initfull _ => 0x92
  | .initpart _ => 0x93
  | .updfull => 0x94
  | .updpart => 0x95
  | .pwron => 0x96
  | .pwroff => 0x97
  | .init => 0xA0
  | .update => 0xA1
  | .updwin _ _ _ _ => 0xA2
  | .erase => 0xA3
  | .fill _ => 0xB0
  | .pixel _ _ _ => 0xB1
  | .getpix _ _ => 0xB2
  | .setrot _ => 0xB3
  | .clrf => 0xF0
  | .pDriverOutput => 0x01
  | .pGateVoltage => 0x03
  | .pSourceVoltage => 0x04
  | .pDataEntryMode => 0x11
  | .pSwReset => 0x12
  | .pActivate => 0x20
  | .pUpdateControl => 0x22
  | .pRamWriteCurrent => 0x24
  | .pRamWritePrevious => 0x26
  | .pVcom => 0x2C
  | .pLut => 0x32
  | .pTimingA => 0x3A
  | .pTimingB => 0x3B
  | .pBorder => 0x3C
  | .pRamXWindow => 0x44
  | .pRamYWindow => 0x45
  | .pRamXCounter => 0x4E
  | .pRamYCounter => 0x4F
  | .pAnalogBlock => 0x74
  | .pDigitalBlock => 0x7E

/-- R91: a 16-bit operand is two Bytes, low Byte first. -/
def word16 (v : U16) : List Byte := [lo v, hi v]

/-- R91: the operand Bytes after the opcode. -/
def operandBytes : Instr → List Byte
  | .wcmd b | .wdat b => [b]
  | .wdatn n ds => word16 n ++ ds
  | .initdisp em | .setem em | .initfull em | .initpart em => [em]
  | .updwin x y w h => word16 x ++ word16 y ++ word16 w ++ word16 h
  | .fill c => [c]
  | .pixel x y c => word16 x ++ word16 y ++ [c]
  | .getpix x y => word16 x ++ word16 y
  | .setrot r => [r]
  | .reset | .waitb | .updfull | .updpart | .pwron | .pwroff | .init | .update | .erase | .clrf => []
  | .pDriverOutput | .pGateVoltage | .pSourceVoltage | .pDataEntryMode | .pSwReset => []
  | .pActivate | .pUpdateControl | .pRamWriteCurrent | .pRamWritePrevious | .pVcom => []
  | .pLut | .pTimingA | .pTimingB | .pBorder | .pRamXWindow => []
  | .pRamYWindow | .pRamXCounter | .pRamYCounter | .pAnalogBlock | .pDigitalBlock => []

/-- The Bytes of an instruction: a host packet, or the one Byte of a panel command. -/
def encode (i : Instr) : List Byte := opcodeOf i :: operandBytes i

/-- Why a packet is illegal, by the name of R102's condition. -/
inductive PacketProblem where
  /-- R101: the opcode is reserved (or the packet is empty). -/
  | reservedOpcode
  /-- R91, R102: the length is not the one the format fixes. -/
  | wrongLength
  /-- R102: colour bits 7:1 are not all zero. -/
  | colourBits
  /-- R102: rotation above 3. -/
  | rotationRange
  deriving DecidableEq, Repr

/-- R91: the packet length an opcode and the count Bytes of format HN fix; `none` for a reserved opcode. -/
def packetLength (op l h : Byte) : Option Nat :=
  match op.toNat with
  | 0x81 | 0x85 | 0x94 | 0x95 | 0x96 | 0x97 | 0xA0 | 0xA1 | 0xA3 | 0xF0 => some 1
  | 0x82 | 0x83 | 0x90 | 0x91 | 0x92 | 0x93 | 0xB0 | 0xB3 => some 2
  | 0x84 => some (3 + (joinBytes l h).toNat)
  | 0xB2 => some 5
  | 0xB1 => some 6
  | 0xA2 => some 9
  | _ => none

/-- R102: the condition that makes a packet illegal, `none` for a legal one. -/
def packetProblem : List Byte → Option PacketProblem
  | [] => some .reservedOpcode
  | op :: body =>
    match packetLength op (body.headD 0) (body.tail.headD 0) with
    | none => some .reservedOpcode
    | some n =>
      if (op :: body).length ≠ n then some .wrongLength
      else match decodeOperation op body with
        | none => some .wrongLength
        | some i =>
          if i.wellFormed then none
          else if op = 0xB3 then some .rotationRange else some .colourBits

/-- The Byte at offset `k` of a number whose first Byte is its least significant (the table's numbering). -/
def tableByte (w k : Nat) : Byte := BitVec.ofNat 8 (w >>> (8 * k))

/-- The packet a table word stands for: as many Bytes as the table gives the row, and zero operand Bytes up
to the length the opcode's format fixes. -/
def tableBytes (nbits w : Nat) : List Byte :=
  let v := w % 2 ^ nbits
  let given := (nbits + 7) / 8
  let full := (packetLength (tableByte v 0) (tableByte v 1) (tableByte v 2)).getD given
  (List.range (max given full)).map (tableByte v)

/-- What the decoder reads from an opcode-table word (bit 0 the least significant bit of the first Byte). -/
def decodeTableWord (nbits w : Nat) : Option Instr := decode (tableBytes nbits w)

end Sys2Proof
end

