-- ==== Sys2Proof/Config.lean ====
section
/-! DEFINITION. The parameters of the block (`spec/00_scope.md` R6, R7, R8). `Params` is the configuration
record R7 asks for; every meaning is written over an arbitrary `Params`. `Config.params` is the one this
machine runs with: the parameters R7 marks OPEN are opaque constants with no body (nothing can be proved of
their values), the parameters R7 gives a default stand at that default (log entries 3 and 4). -/

namespace Sys2Proof

/-- R7: the data lists of the nine fixed registers of InitDisplay. -/
structure RegisterData where
  analog : List Byte
  digital : List Byte
  driver : List Byte
  border : List Byte
  vcom : List Byte
  gate : List Byte
  source : List Byte
  timingA : List Byte
  timingB : List Byte
  deriving DecidableEq, Repr, Inhabited

/-- R164: `S`, the number of data Bytes of the nine fixed registers together. -/
def RegisterData.total (d : RegisterData) : Nat :=
  d.analog.length + d.digital.length + d.driver.length + d.border.length + d.vcom.length
    + d.gate.length + d.source.length + d.timingA.length + d.timingB.length

/-- R7: the parameters, "a field of its configuration record" each. Durations are in microseconds. -/
structure Params where
  /-- `D_ANALOG` .. `D_TIMING_B` (D18). -/
  reg : RegisterData
  /-- `D_VCOM_PART` (D20). -/
  vcomPart : Byte
  /-- `LUT_FULL` (D19). -/
  lutFull : List Byte
  /-- `LUT_PART` (D19). -/
  lutPart : List Byte
  /-- `EM_UPDATE`, 0..3 (D23). -/
  emUpdate : BitVec 2
  /-- `XMIT_INVERT` (D11). -/
  xmitInvert : Bool
  /-- `DEFAULT_BYTE` (D12). -/
  defaultByte : Byte
  /-- `ROT_XFORM` (D13, R202). -/
  rotXform : BitVec 2 → Int → Int → Int × Int
  /-- `REPOINT_SECOND_BURST` (D25). -/
  repointSecondBurst : Bool
  /-- `BUSY_MAX_POLLS` (D6). -/
  busyMaxPolls : Nat
  /-- `T_POLL` (D6). -/
  tPoll : Nat
  /-- `T_RST_LOW` (D26). -/
  tRstLow : Nat
  /-- `T_RST_SETTLE` (D26). -/
  tRstSettle : Nat
  /-- `T_STREAM_SETTLE` (D26). -/
  tStreamSettle : Nat

/-- R202: all that may be assumed of a rotation transform: the identity at rotation 0 and injective at each
rotation (that it depends on nothing but its arguments is its type). -/
def RotationLaws (f : BitVec 2 → Int → Int → Int × Int) : Prop :=
  (∀ x y, f 0 x y = (x, y)) ∧ ∀ r x y x' y', f r x y = f r x' y' → x = x' ∧ y = y'

/-- R189: the length of the longest micro-program, that of a UPDWIN that is not empty. -/
def Params.longestProgram (P : Params) : Nat := 68 + P.reg.total + if P.repointSecondBurst then 14 else 0

/-- The instantiations the spec does not refuse: `BUSY_MAX_POLLS ≥ 1` (U15), every micro-program shorter
than 65536 µops (R24, U16), a BURST's count fits BIDX (R79), `T_POLL > 0` and `T_RST_LOW ≥ 10 ms` (R7), and
R202's laws for the transform. -/
structure Params.Wf (P : Params) : Prop where
  polls : 1 ≤ P.busyMaxPolls
  programs : P.longestProgram < 65536
  lutFull : P.lutFull.length ≤ 65535
  lutPart : P.lutPart.length ≤ 65535
  poll : 0 < P.tPoll
  rstLow : 10000 ≤ P.tRstLow
  rotation : RotationLaws P.rotXform

/-- R129: "The configured deadline of D00 §8 is (BUSY_MAX_POLLS - 1) · T_POLL after the first sample." -/
def Params.deadline (P : Params) : Nat := (P.busyMaxPolls - 1) * P.tPoll

namespace Config

/-- The free register data of R7 (no body: no value of it can be proved). -/
opaque freeRegisterData : RegisterData

/-- The free `D_VCOM_PART`. -/
opaque freeVcomPart : Byte

/-- The free `LUT_FULL`. -/
opaque freeLutFull : List Byte

/-- The free `LUT_PART`. -/
opaque freeLutPart : List Byte

/-- The free `BUSY_MAX_POLLS`, less the one R7 requires. -/
opaque freeExtraPolls : Nat

/-- The free `T_POLL`, less the one microsecond that makes it positive. -/
opaque freePollMicros : Nat

/-- The free `T_STREAM_SETTLE`. -/
opaque freeStreamSettle : Nat

/-- R43: the level of BUSY at the n-th sample the host's own list of levels does not give: an unconstrained
draw of the panel (U14). -/
opaque busyDraw : Nat → Bool

/-- The register data of this machine: the free ones, unless their total is one the spec refuses (U16; with no
re-pointing the longest micro-program has 68 + S µops, R189). -/
def registerData : RegisterData :=
  if 68 + freeRegisterData.total < 65536 then freeRegisterData else ⟨[], [], [], [], [], [], [], [], []⟩

/-- The parameters this machine runs with. -/
def params : Params :=
  { reg := registerData
    vcomPart := freeVcomPart
    lutFull := freeLutFull.take 65535
    lutPart := freeLutPart.take 65535
    emUpdate := 3
    xmitInvert := true
    defaultByte := 0x00
    rotXform := Machine.defaultRotation
    repointSecondBurst := false
    busyMaxPolls := freeExtraPolls + 1
    tPoll := freePollMicros + 1
    tRstLow := 10000
    tRstSettle := 10000
    tStreamSettle := freeStreamSettle }

end Config

end Sys2Proof
end

