-- ==== Sys2Proof/Machine/State.lean ====
section
/-! DEFINITION. The state of the block (`spec/10_state.md` R20 to R30, R40), its reset (R46), the reasons a
step could stop (none is ever used), and the two inputs the environment feeds it: the host's requests (R45)
and the panel's BUSY levels (R43). -/

namespace Sys2Proof.Machine

/-- R40, R7: the name of a duration a DLY µop holds for ("t is a parameter name or value"). -/
inductive Delay where
  /-- `T_RST_LOW` -/
  | rstLow
  /-- `T_RST_SETTLE` -/
  | rstSettle
  /-- `T_STREAM_SETTLE` -/
  | streamSettle
  deriving DecidableEq, Repr

/-- R40: the link events of the ghost trace. -/
inductive Event where
  /-- an RST µop drove the RST pin to `v` -/
  | rst (v : Bool)
  /-- a DLY µop held for the named duration -/
  | dly (t : Delay)
  /-- a busy sample returned `s` (true: BUSY asserted) -/
  | poll (s : Bool)
  /-- Byte `b` was transferred with DC = 0 -/
  | cmd (b : Byte)
  /-- Byte `b` was transferred with DC = 1 -/
  | dat (b : Byte)
  deriving DecidableEq, Repr

/-- R26: the five output pins of the link. -/
structure Pins where
  sck : Bool
  mosi : Bool
  /-- chip select, active low -/
  cs : Bool
  /-- false: command-select, true: data-select -/
  dc : Bool
  /-- panel reset, active low -/
  rst : Bool
  deriving DecidableEq, Repr

/-- R45, R320: what the outside can present to the block, in the order it arrives. The kinds beside `packet`
and `blockReset` are the model's own (log entry 6). -/
inductive HostInput where
  /-- a request packet; the host is blocked until the block releases it (R45), one step -/
  | packet (bytes : List Byte)
  /-- the same request, its micro-program shown one µop a step -/
  | packetStepwise (bytes : List Byte)
  /-- the host presents nothing for one step -/
  | nothing
  /-- the block's own reset input (R320) -/
  | blockReset
  deriving DecidableEq, Repr

/-- The state: R20's elements, then three fields of the model's own for the environment. -/
structure State where
  /-- R21, R60: the framebuffer's Bytes that are not 0x00, addresses strictly rising. -/
  fb : List Host.Cell
  /-- R22: the operand latches. -/
  opc : Byte
  a0 : U16
  a1 : U16
  a2 : U16
  a3 : U16
  payload : List Byte
  /-- R23 -/
  rot : BitVec 2
  /-- R24: the sequencer. -/
  active : Bool
  upc : U16
  bidx : U16
  pollcnt : Nat
  /-- R26 -/
  pins : Pins
  /-- R27: the flags of STATUS, with `active` above and `pwr` below. -/
  fault : Bool
  stall : Bool
  ill : Bool
  rej : Bool
  /-- R28: the fault record. -/
  cause : BitVec 2
  fop : Byte
  fupc : U16
  /-- R28: the result register. -/
  rdata : Bool
  roob : Bool
  /-- R29: the shadow registers. -/
  emv : Bool
  em : BitVec 2
  winv : Bool
  wxs : Byte
  wxe : Byte
  wys : U16
  wye : U16
  lutsel : BitVec 2
  pwr : Bool
  /-- R40: TRACE, held newest event first; `State.trace` reads it in order. -/
  traceRev : List Event
  /-- R45 (the model's own): the host's requests still to come, the next one first. -/
  inbox : List HostInput
  /-- R43 (the model's own): the next levels BUSY shows, the next one first. -/
  busy : List Bool
  /-- R43 (the model's own): how many levels were drawn after `busy` ran out. -/
  draws : Nat
  deriving DecidableEq, Repr

/-- Why the machine would stop with a fault. There is no reason: "The block has exactly one fault,
ControllerUnresponsive" (R290), and taking it is a next state (R296), as is every other condition of R293. -/
inductive Fault where
  deriving DecidableEq, Repr

/-- Why the machine would have no answer. -/
inductive Refusal where
  /-- Raised by an arm of `exec` with no meaning yet, of which there is none left; safe. -/
  | notModelled (mnemonic : String)
  deriving DecidableEq, Repr

namespace State

/-- R40: the trace, oldest event first. -/
def trace (s : State) : List Event := s.traceRev.reverse

/-- R26, R46: the idle levels of the pins, MOSI 0. -/
def resetPins : Pins := { sck := false, mosi := false, cs := true, dc := true, rst := true }

/-- R46: the machine right after block reset; the environment has not spoken yet. -/
def reset : State :=
  { fb := []
    opc := 0, a0 := 0, a1 := 0, a2 := 0, a3 := 0, payload := []
    rot := 0
    active := false, upc := 0, bidx := 0, pollcnt := 0
    pins := resetPins
    fault := false, stall := false, ill := false, rej := false
    cause := 0, fop := 0, fupc := 0
    rdata := false, roob := false
    emv := false, em := 0, winv := false, wxs := 0, wxe := 0, wys := 0, wye := 0, lutsel := 0, pwr := false
    traceRev := []
    inbox := [], busy := [], draws := 0 }

end State

end Sys2Proof.Machine
end

