-- ==== Sys2Proof/Machine/Uop.lean ====
section
/-! DEFINITION. The micro-operations (`spec/40_transport.md` R120) and what one leaves behind in closed form:
the link events it emits and the shadow writes it makes. -/

namespace Sys2Proof.Machine

/-- R130, R29: one group of shadow writes of an SH µop. -/
inductive Shadow where
  /-- `EM <- e, EMV <- 1` (R152) -/
  | entryMode (e : BitVec 2)
  /-- `WXS <- xs, WXE <- xe, WYS <- ys, WYE <- ye, WINV <- 1` (R151) -/
  | window (w : Window)
  /-- `LUTSEL <- s` (R163) -/
  | lutsel (s : BitVec 2)
  /-- `PWR <- v` (R150) -/
  | pwr (v : Bool)
  deriving DecidableEq, Repr

/-- R120: the seven kinds of micro-operation. -/
inductive Uop where
  | rst (v : Bool)
  | dly (t : Delay)
  | wait
  | cmd (b : Byte)
  | dat (b : Byte)
  | burst (bs : List Byte)
  | sh (a : Shadow)
  deriving DecidableEq, Repr

/-- R120, column "trace": the events of a completed µop, its `Poll` events left out. -/
def Uop.linkEvents : Uop → List Event
  | .rst v => [.rst v]
  | .dly t => [.dly t]
  | .wait => []
  | .cmd b => [.cmd b]
  | .dat b => [.dat b]
  | .burst bs => bs.map .dat
  | .sh _ => []

/-- The link events of a whole micro-program, in order. -/
def linkEvents (p : List Uop) : List Event := p.flatMap Uop.linkEvents

/-- R7: the duration a delay's name stands for, in microseconds; R123: the block holds at least this long. -/
def Delay.micros (P : Params) : Delay → Nat
  | .rstLow => P.tRstLow
  | .rstSettle => P.tRstSettle
  | .streamSettle => P.tStreamSettle

/-- R120: `REG(c, ds) = [CMD c] ++ [DAT d | d <- ds]`. -/
def regWrite (c : Byte) (ds : List Byte) : List Uop := .cmd c :: ds.map .dat

end Sys2Proof.Machine
end

