-- ==== Sys2Proof/Machine/Ops.lean ====
section
/-! DEFINITION. The named operations over memory and state: the framebuffer's Bytes (R60 to R65), the trace,
the BUSY input (R43), the operand latches (R22, R92), taking the fault and returning from it (R296, R301,
R220), and block reset (R320). -/

namespace Sys2Proof.Machine

/-! ### Memory -/

/-- What a framebuffer Byte no entry lists reads as: the reset contents of FB (R21, R46). -/
def unlisted : Byte := 0x00

/-- The canonical form of the framebuffer: addresses strictly rising and inside 0..3999 (R72), and no entry
that holds what an unlisted address reads as. -/
abbrev Memory.wf (m : List Host.Cell) : Prop :=
  m.Pairwise (fun a b => a.1 < b.1) ∧ ∀ c ∈ m, c.1 < 4000 ∧ c.2 ≠ unlisted

/-- R12: `FB[i]`. -/
def readByte : List Host.Cell → Nat → Byte
  | [], _ => unlisted
  | (a, v) :: m, i => if a = i then v else readByte m i

/-- An entry for address `i` holding `v`, unless `v` is what an unlisted address reads as. -/
def entry (i : Nat) (v : Byte) (m : List Host.Cell) : List Host.Cell :=
  if v = unlisted then m else (i, v) :: m

/-- R12: `FB[i] <- v`, in canonical form. -/
def writeByte : List Host.Cell → Nat → Byte → List Host.Cell
  | [], i, v => entry i v []
  | (a, w) :: m, i, v =>
    if i < a then entry i v ((a, w) :: m)
    else if i = a then entry i v m
    else (a, w) :: writeByte m i v

/-- R200: every one of the 4000 Bytes holds `v`. -/
def fillBytes (v : Byte) : List Host.Cell :=
  if v = unlisted then [] else (List.range 4000).map (fun i => (i, v))

/-- R63: `FbSet(px, py, c)`, a read-modify-write of one Byte. -/
def fbSet (fb : List Host.Cell) (px py : Nat) (c : Bool) : List Host.Cell :=
  let i := pixelIndex px py
  let m := pixelMask px
  writeByte fb i (if c then readByte fb i ||| m else readByte fb i &&& ~~~m)

/-- R64: `FbGet(px, py)`. -/
def fbGet (fb : List Host.Cell) (px py : Nat) : Bool :=
  decide (readByte fb (pixelIndex px py) &&& pixelMask px ≠ 0)

/-- R65: `fbbyte(i)`, the default Byte for an index outside the framebuffer, never an error. -/
def fbByte (P : Params) (fb : List Host.Cell) (i : Nat) : Byte :=
  if i < 4000 then readByte fb i else P.defaultByte

/-- R65: `xmit(b)`. -/
def xmit (P : Params) (b : Byte) : Byte := if P.xmitInvert then ~~~b else b

/-- R66: `image()`, 4000 Bytes in index order. -/
def image (P : Params) (fb : List Host.Cell) : List Byte :=
  (upTo 0 249).flatMap fun y => (upTo 0 15).map fun xb => xmit P (fbByte P fb (y * 16 + xb))

/-- R66: `rect(xsb, xeb, ys, ye)`, row by row. -/
def rectBytes (P : Params) (fb : List Host.Cell) (r : Rect) : List Byte :=
  (upTo r.ys r.ye).flatMap fun y1 => (upTo r.xsb r.xeb).map fun x1 => xmit P (fbByte P fb (y1 * 16 + x1))

/-! ### The trace and the BUSY input -/

/-- R13: `emit(e)`. -/
def emit (e : Event) (s : State) : State := { s with traceRev := e :: s.traceRev }

/-- R13, R43: the level the next `sample()` returns: the next one of the panel's levels in State, or a free
draw when there is none. -/
def busyLevel (s : State) : Bool :=
  match s.busy with
  | b :: _ => b
  | [] => Config.busyDraw s.draws

/-- R43: a sample uses up one draw. -/
def dropBusy (s : State) : State :=
  match s.busy with
  | _ :: bs => { s with busy := bs }
  | [] => { s with draws := s.draws + 1 }

/-- R43: the level the k-th sample from now will return (k = 0 is the next). -/
def upcomingBusy (s : State) (k : Nat) : Bool :=
  match s.busy[k]? with
  | some b => b
  | none => Config.busyDraw (s.draws + (k - s.busy.length))

/-! ### Operand latches -/

/-- R22, R91, R92: the fields of a packet in the operand latches; latches the format does not name keep
their values. -/
def loadOperands (i : Instr) (s : State) : State :=
  match i with
  | .wcmd b | .wdat b => { s with a0 := byteOperand b }
  | .wdatn n ds => { s with a0 := n, payload := ds }
  | .initdisp em | .setem em | .initfull em | .initpart em => { s with a0 := byteOperand em }
  | .updwin x y w h => { s with a0 := x, a1 := y, a2 := w, a3 := h }
  | .fill c => { s with a0 := byteOperand c }
  | .pixel x y c => { s with a0 := x, a1 := y, a2 := byteOperand c }
  | .getpix x y => { s with a0 := x, a1 := y }
  | .setrot r => { s with a0 := byteOperand r }
  | .reset | .waitb | .updfull | .updpart | .pwron | .pwroff | .init | .update | .erase | .clrf => s
  | .pDriverOutput | .pGateVoltage | .pSourceVoltage | .pDataEntryMode | .pSwReset => s
  | .pActivate | .pUpdateControl | .pRamWriteCurrent | .pRamWritePrevious | .pVcom => s
  | .pLut | .pTimingA | .pTimingB | .pBorder | .pRamXWindow => s
  | .pRamYWindow | .pRamXCounter | .pRamYCounter | .pAnalogBlock | .pDigitalBlock => s

/-- R92 step 2: acceptance loads `OPC` and the operand latches. -/
def latch (i : Instr) (s : State) : State := loadOperands i { s with opc := opcodeOf i }

/-- R16, R300: the link operations, families transport, sequencer and refresh. -/
def isLink : Instr → Bool
  | .reset | .wcmd _ | .wdat _ | .wdatn _ _ | .waitb => true
  | .initdisp _ | .setem _ | .initfull _ | .initpart _ => true
  | .updfull | .updpart | .pwron | .pwroff => true
  | .init | .update | .updwin _ _ _ _ | .erase => true
  | .fill _ | .pixel _ _ _ | .getpix _ _ | .setrot _ | .clrf => false
  | .pDriverOutput | .pGateVoltage | .pSourceVoltage | .pDataEntryMode | .pSwReset => false
  | .pActivate | .pUpdateControl | .pRamWriteCurrent | .pRamWritePrevious | .pVcom => false
  | .pLut | .pTimingA | .pTimingB | .pBorder | .pRamXWindow => false
  | .pRamYWindow | .pRamXCounter | .pRamYCounter | .pAnalogBlock | .pDigitalBlock => false

/-! ### Taking the fault, returning from it, block reset -/

/-- R296: fault entry, `raise ControllerUnresponsive(UPC)`. Control goes nowhere: there is no handler and no
vector; the block becomes idle. POLLCNT, RST and everything not named keep their values. -/
def faultEntry (s : State) : State :=
  { s with
    fault := true
    cause := 1
    fop := s.opc
    fupc := s.upc
    active := false
    upc := 0
    bidx := 0
    pins := { s.pins with cs := true, dc := true, sck := false } }

/-- R220, R301: the return from the faulted state, CLRF's effect on the fault record and the sticky flags. -/
def clearFault (s : State) : State :=
  { s with fault := false, cause := 0, fop := 0, fupc := 0, stall := false, ill := false, rej := false }

/-- R320, R46: block reset puts every element of the block at its reset value and abandons any running
micro-program; it does not pulse RST. What the environment will present later is not the block's. -/
def blockReset (s : State) : State :=
  { State.reset with inbox := s.inbox, busy := s.busy, draws := s.draws }

end Sys2Proof.Machine
end

