-- ==== Sys2Proof/Machine/Flags.lean ====
section
/-! DEFINITION. The flags of STATUS other than FAULT, PWR and ACTIVE (`spec/10_state.md` R27), the acceptance
checks that set two of them (`spec/30_encoding.md` R92, `spec/60_exceptions.md` R299, R300), the shadow writes
(R130), and what the host reads (R45, R221). There are no arithmetic condition codes. -/

namespace Sys2Proof.Machine

/-- R27, R124: the sticky log of a command precheck that sampled BUSY asserted; a WAIT does not log. -/
def logStall (log : Bool) (s : State) : State := if log then { s with stall := true } else s

/-- R102: an illegal packet sets `ILL` and has no other effect. -/
def rejectIllegal (s : State) : State := { s with ill := true }

/-- R300: a link operation refused because `FAULT` = 1. -/
def refuseLink (s : State) : State := { s with rej := true }

/-- R92, R299: what happens when operation `i` is presented. The order is legality, then the latches, then
the refusal of a link operation under FAULT, then the operation's own rule `body`. While `ACTIVE` = 1 the
block does not accept an operation (R45). -/
def accept (i : Instr) (body : State → State) (s : State) : State :=
  if s.active then s
  else if i.wellFormed then
    if isLink i && s.fault then refuseLink (latch i s) else body (latch i s)
  else rejectIllegal s

/-- R130, R29: the shadow writes of an SH µop. -/
def writeShadow (a : Shadow) (s : State) : State :=
  match a with
  | .entryMode e => { s with em := e, emv := true }
  | .window w => { s with wxs := w.xs, wxe := w.xe, wys := w.ys, wye := w.ye, winv := true }
  | .lutsel v => { s with lutsel := v }
  | .pwr v => { s with pwr := v }

/-- R122, R29: driving RST low clears the four valid indications of the shadows. -/
def invalidateShadows (s : State) : State :=
  { s with emv := false, winv := false, lutsel := 0, pwr := false }

/-- R45, R221: everything the host can read, at any time and without an operation. -/
structure HostView where
  active : Bool
  fault : Bool
  stall : Bool
  ill : Bool
  rej : Bool
  pwr : Bool
  cause : BitVec 2
  fop : Byte
  fupc : U16
  rdata : Bool
  roob : Bool
  rot : BitVec 2
  emv : Bool
  em : BitVec 2
  winv : Bool
  wxs : Byte
  wxe : Byte
  wys : U16
  wye : U16
  lutsel : BitVec 2
  /-- R45: the ready indication, low while `ACTIVE` = 1. -/
  ready : Bool
  /-- R45, R295: the level output `fault_o`. -/
  faultO : Bool
  deriving DecidableEq, Repr

/-- R45, R221: the host's view; UPC, BIDX, POLLCNT, the latches and FB are not in it. -/
def hostView (s : State) : HostView :=
  { active := s.active, fault := s.fault, stall := s.stall, ill := s.ill, rej := s.rej, pwr := s.pwr
    cause := s.cause, fop := s.fop, fupc := s.fupc, rdata := s.rdata, roob := s.roob, rot := s.rot
    emv := s.emv, em := s.em, winv := s.winv, wxs := s.wxs, wxe := s.wxe, wys := s.wys, wye := s.wye
    lutsel := s.lutsel, ready := !s.active, faultO := s.fault }

end Sys2Proof.Machine
end

