-- ==== Sys2Proof/Machine/Control.lean ====
section
/-! DEFINITION. The control family (`spec/44_control.md` R220): CLRF, the acknowledge. Reading status needs
no operation (R221): `hostView`. -/

namespace Sys2Proof.Machine

/-- R220: CLRF. -/
def clrfOp (s : State) : State := accept .clrf clearFault s

/-- R220 -/
def execClrf (s : State) : Host.Outcome State Fault Refusal := .next (clrfOp s)

end Sys2Proof.Machine
end

