-- ==== Sys2Proof/Machine/Framebuffer.lean ====
section
/-! DEFINITION. The framebuffer family (`spec/43_framebuffer.md` R200, R204, R206, R208). These operations
never touch the link, never set ACTIVE, complete in the step that accepts them, cannot fault, and are
accepted while FAULT = 1. -/

namespace Sys2Proof.Machine

/-- R204, R206: the physical pair of a logical one under the current rotation. -/
def physical (P : Params) (s : State) (x y : U16) : Int × Int := P.rotXform s.rot (signed x) (signed y)

/-- R200: FILL. All 4000 Bytes, whatever ROT is. -/
def fillOp (c : Byte) (s : State) : State :=
  accept (.fill c) (fun t => { t with fb := fillBytes (rep8 (colourBit c)) }) s

/-- R204: rotate, clip silently, set or clear one bit. -/
def drawPixel (P : Params) (x y : U16) (c : Bool) (s : State) : State :=
  let p := physical P s x y
  if inBounds p then { s with fb := fbSet s.fb p.1.toNat p.2.toNat c } else s

/-- R204: PIXEL. -/
def pixelOp (P : Params) (x y : U16) (c : Byte) (s : State) : State :=
  accept (.pixel x y c) (drawPixel P x y (colourBit c)) s

/-- R206: the read-back of one pixel into RDATA and ROOB. -/
def readPixel (P : Params) (x y : U16) (s : State) : State :=
  let p := physical P s x y
  if inBounds p then { s with rdata := fbGet s.fb p.1.toNat p.2.toNat, roob := false }
  else { s with rdata := false, roob := true }

/-- R206: GETPIX. -/
def getpixOp (P : Params) (x y : U16) (s : State) : State := accept (.getpix x y) (readPixel P x y) s

/-- R208: SETROT. -/
def setrotOp (r : Byte) (s : State) : State := accept (.setrot r) (fun t => { t with rot := rotationBits r }) s

/-- R200 -/
def execFill (c : Byte) (s : State) : Host.Outcome State Fault Refusal := .next (fillOp c s)

/-- R204 -/
def execPixel (x y : U16) (c : Byte) (s : State) : Host.Outcome State Fault Refusal :=
  .next (pixelOp Config.params x y c s)

/-- R206 -/
def execGetpix (x y : U16) (s : State) : Host.Outcome State Fault Refusal :=
  .next (getpixOp Config.params x y s)

/-- R208 -/
def execSetrot (r : Byte) (s : State) : Host.Outcome State Fault Refusal := .next (setrotOp r s)

end Sys2Proof.Machine
end

