-- ==== Sys2Proof/Machine/Engine.lean ====
section
/-! DEFINITION. The engine of `spec/40_transport.md`: the byte transfer at the pins (R127, R128), the busy
wait (R129, R292), each µop (R122 to R126, R130), and the loop that runs a micro-program (R121). A hold of
the delay timer (R123, R304) takes time, changes no pin and no state, so it is not an assignment here. -/

namespace Sys2Proof.Machine

/-! ### Pins -/

/-- R127: the three pin states of one bit: MOSI is set, SCK rises (the panel samples), SCK falls. -/
def bitWave (v : Bool) (p : Pins) : List Pins :=
  [{ p with mosi := v }, { p with mosi := v, sck := true }, { p with mosi := v, sck := false }]

/-- R127: one clocked bit. -/
def clockBit (v : Bool) (p : Pins) : Pins := { p with mosi := v, sck := false }

/-- R127, R68: the bits of a Byte in the order they are sent, `for i = 7 downto 0`. -/
def msbFirst (b : Byte) : List Bool := [7, 6, 5, 4, 3, 2, 1, 0].map b.getLsbD

/-- R127: `shift(b)`, with CS already low and SCK at 0. -/
def shiftByte (b : Byte) (p : Pins) : Pins := (msbFirst b).foldl (fun q v => clockBit v q) p

/-- R127: the pin states `shift(b)` passes through, in order. -/
def shiftWave (b : Byte) (p : Pins) : List Pins := (msbFirst b).flatMap fun v => bitWave v p

/-- R127: `xfer(b) = CS <- 0 ; shift(b) ; CS <- 1`. -/
def xferByte (b : Byte) (p : Pins) : Pins := { shiftByte b { p with cs := false } with cs := true }

/-- R124, R125, R128: the pin states of one Byte under its own chip-select assertion, DC at the given level. -/
def xferWave (dc : Bool) (b : Byte) (p : Pins) : List Pins :=
  let q := { p with dc := dc }
  q :: { q with cs := false } :: shiftWave b { q with cs := false }
    ++ [xferByte b q, { xferByte b q with dc := true }]

/-- R126, R128: the pin states of a burst: CS falls once before its first Byte and rises after its last. -/
def burstWave (bs : List Byte) (p : Pins) : List Pins :=
  match bs with
  | [] => []
  | _ =>
    let q := { p with dc := true, cs := false }
    q :: bs.flatMap (fun b => shiftWave b q) ++ [{ bs.foldl (fun r b => shiftByte b r) q with cs := true }]

/-- R120: the pin states one µop passes through, from the pins it finds. -/
def Uop.wave (p : Pins) : Uop → List Pins
  | .rst v => [{ p with rst := v }]
  | .cmd b => xferWave false b p
  | .dat b => xferWave true b p
  | .burst bs => burstWave bs p
  | .dly _ | .wait | .sh _ => []

/-- R127: what the panel samples from a wave: MOSI at each rising edge of SCK, with DC and CS there. -/
def sampledBits (p : Pins) : List Pins → List (Bool × Bool × Bool)
  | [] => []
  | q :: w => (if !p.sck && q.sck then [(q.mosi, q.dc, q.cs)] else []) ++ sampledBits q w

/-! ### The busy wait -/

/-- What a µop ends in: completed, or the fault raised (R121). -/
inductive UopEnd where
  | done (s : State)
  | raised (s : State)
  deriving DecidableEq, Repr

/-- R129: one `sample()` and its `Poll` event. -/
def sampleBusy (s : State) : State := emit (.poll (busyLevel s)) (dropBusy s)

/-- R129: the poll loop with so many samples left before the bound: an asserted sample is counted (and
logged by a precheck), and the fault is raised at once when it is the last the bound allows. The hold of
T_POLL between samples changes nothing. -/
def pollLoop (log : Bool) : Nat → State → UopEnd
  | 0, s => .raised (faultEntry s)
  | n + 1, s =>
    if busyLevel s then
      let t := logStall log (sampleBusy s)
      pollLoop log n { t with pollcnt := t.pollcnt + 1 }
    else .done (sampleBusy s)

/-- R129: `waitbusy(log)`. -/
def waitBusy (P : Params) (log : Bool) (s : State) : UopEnd :=
  pollLoop log P.busyMaxPolls { s with pollcnt := 0 }

/-! ### The micro-operations -/

/-- R122: `RST v`. -/
def rstUop (v : Bool) (s : State) : State :=
  let t := if v then s else invalidateShadows s
  emit (.rst v) { t with pins := { t.pins with rst := v } }

/-- R124: the transfer of a CMD µop, after its precheck. -/
def sendCommand (b : Byte) (s : State) : State :=
  emit (.cmd b) { s with pins := { xferByte b { s.pins with dc := false } with dc := true } }

/-- R125: `DAT b`, with DC at data-select throughout and no busy precheck. -/
def sendData (b : Byte) (s : State) : State :=
  emit (.dat b) { s with pins := xferByte b { s.pins with dc := true } }

/-- R126: the Bytes of a burst, CS already low; BIDX counts them and returns to 0 at the end. -/
def burstBytes : List Byte → State → State
  | [], s => { s with bidx := 0, pins := { s.pins with cs := true } }
  | b :: bs, s => burstBytes bs (emit (.dat b) { s with pins := shiftByte b s.pins, bidx := s.bidx + 1 })

/-- R126, R128: `BURST bs`, one chip-select assertion around the whole list, none around an empty one. -/
def sendBurst (bs : List Byte) (s : State) : State :=
  match bs with
  | [] => { s with bidx := 0 }
  | _ => burstBytes bs { s with bidx := 0, pins := { s.pins with dc := true, cs := false } }

/-- R120: performs one µop. Only a WAIT and the precheck of a CMD can raise, both before any transfer. -/
def perform (P : Params) (u : Uop) (s : State) : UopEnd :=
  match u with
  | .rst v => .done (rstUop v s)
  | .dly t => .done (emit (.dly t) s)
  | .wait => waitBusy P false s
  | .cmd b =>
    match waitBusy P true s with
    | .done t => .done (sendCommand b t)
    | .raised t => .raised t
  | .dat b => .done (sendData b s)
  | .burst bs => .done (sendBurst bs s)
  | .sh a => .done (writeShadow a s)

/-! ### The loop -/

/-- R24: a µop that completes advances UPC by exactly 1. -/
def advance (s : State) : State := { s with upc := s.upc + 1 }

/-- R121: acceptance of a link operation starts its micro-program. -/
def startProgram (s : State) : State := { s with active := true, upc := 0 }

/-- R121: the end of a micro-program that ran to its end. -/
def finishProgram (s : State) : State := { s with active := false, upc := 0 }

/-- R121: `while UPC < len(P)`: the µops still to perform, in order; a raised fault abandons the rest. -/
def runProgram (P : Params) : List Uop → State → State
  | [], s => finishProgram s
  | u :: us, s =>
    match perform P u s with
    | .done t => runProgram P us (advance t)
    | .raised t => t

/-- R121: performs the µop at UPC and stops there (one step of a request shown µop by µop). -/
def performOne (P : Params) (u : Uop) (s : State) : State :=
  match perform P u s with
  | .done t => advance t
  | .raised t => t

/-- R92, R121: a link operation from acceptance to the host's release. -/
def linkOp (P : Params) (i : Instr) (p : List Uop) (s : State) : State :=
  accept i (fun t => runProgram P p (startProgram t)) s

/-- R95, R124, R121: a panel command as the µop `CMD b` of the running micro-program. With no operation
running, a panel opcode can only be a host packet of that one Byte, which is illegal (R101: host opcodes
0x00..0x80 are reserved). -/
def panelCommand (P : Params) (b : Byte) (s : State) : State :=
  if s.active then performOne P (.cmd b) s else rejectIllegal s

end Sys2Proof.Machine
end

