-- ==== Sys2Proof/Machine/PanelCommands.lean ====
section
/-! DEFINITION. The twenty panel commands (`spec/45_panel_commands.md` R230 to R249) as the block performs
them: each is the command Byte sent with DC at command-select after the busy precheck, the µop `CMD` of the
micro-program that runs (R95, R124). The data Bytes that follow are µops of their own, in the generators the
rule names. What the panel does with a command is the panel's (`Machine/Panel.lean`, R251). -/

namespace Sys2Proof.Machine

/-- R230: 0x01. -/
def execPDriverOutput (s : State) : Host.Outcome State Fault Refusal := .next (panelCommand Config.params 0x01 s)

/-- R231: 0x03. -/
def execPGateVoltage (s : State) : Host.Outcome State Fault Refusal := .next (panelCommand Config.params 0x03 s)

/-- R232: 0x04. -/
def execPSourceVoltage (s : State) : Host.Outcome State Fault Refusal := .next (panelCommand Config.params 0x04 s)

/-- R233: 0x11. -/
def execPDataEntryMode (s : State) : Host.Outcome State Fault Refusal := .next (panelCommand Config.params 0x11 s)

/-- R234: 0x12. -/
def execPSwReset (s : State) : Host.Outcome State Fault Refusal := .next (panelCommand Config.params 0x12 s)

/-- R235: 0x20. -/
def execPActivate (s : State) : Host.Outcome State Fault Refusal := .next (panelCommand Config.params 0x20 s)

/-- R236: 0x22. -/
def execPUpdateControl (s : State) : Host.Outcome State Fault Refusal := .next (panelCommand Config.params 0x22 s)

/-- R237: 0x24. -/
def execPRamWriteCurrent (s : State) : Host.Outcome State Fault Refusal := .next (panelCommand Config.params 0x24 s)

/-- R238: 0x26. -/
def execPRamWritePrevious (s : State) : Host.Outcome State Fault Refusal := .next (panelCommand Config.params 0x26 s)

/-- R239: 0x2C. -/
def execPVcom (s : State) : Host.Outcome State Fault Refusal := .next (panelCommand Config.params 0x2C s)

/-- R240: 0x32. -/
def execPLut (s : State) : Host.Outcome State Fault Refusal := .next (panelCommand Config.params 0x32 s)

/-- R241: 0x3A. -/
def execPTimingA (s : State) : Host.Outcome State Fault Refusal := .next (panelCommand Config.params 0x3A s)

/-- R242: 0x3B. -/
def execPTimingB (s : State) : Host.Outcome State Fault Refusal := .next (panelCommand Config.params 0x3B s)

/-- R243: 0x3C. -/
def execPBorder (s : State) : Host.Outcome State Fault Refusal := .next (panelCommand Config.params 0x3C s)

/-- R244: 0x44. -/
def execPRamXWindow (s : State) : Host.Outcome State Fault Refusal := .next (panelCommand Config.params 0x44 s)

/-- R245: 0x45. -/
def execPRamYWindow (s : State) : Host.Outcome State Fault Refusal := .next (panelCommand Config.params 0x45 s)

/-- R246: 0x4E. -/
def execPRamXCounter (s : State) : Host.Outcome State Fault Refusal := .next (panelCommand Config.params 0x4E s)

/-- R247: 0x4F. -/
def execPRamYCounter (s : State) : Host.Outcome State Fault Refusal := .next (panelCommand Config.params 0x4F s)

/-- R248: 0x74. -/
def execPAnalogBlock (s : State) : Host.Outcome State Fault Refusal := .next (panelCommand Config.params 0x74 s)

/-- R249: 0x7E. -/
def execPDigitalBlock (s : State) : Host.Outcome State Fault Refusal := .next (panelCommand Config.params 0x7E s)

end Sys2Proof.Machine
end

