-- ==== Sys2Proof/Machine/Sequencer.lean ====
section
/-! DEFINITION. The sequencer family (`spec/41_sequencer.md`): the generators R150 to R154, the waveform LUT
multiplexer R163, and the operations R155 to R162. -/

namespace Sys2Proof.Machine

/-! ### Generators -/

/-- R150: the activation pair `ACT(m)`. -/
def act (m : Byte) : List Uop := [.cmd 0x22, .dat m, .cmd 0x20, .wait]

/-- R150: `UPDFULLSEQ`, mode byte MODE_FULL (R6). -/
def updFullSeq : List Uop := act 0xC7

/-- R150: `UPDPARTSEQ`, mode byte MODE_PART. -/
def updPartSeq : List Uop := act 0x04

/-- R150: `PWRONSEQ`: PWR is set as soon as the activation has been sent. -/
def pwrOnSeq : List Uop := [.cmd 0x22, .dat 0xC0, .cmd 0x20, .sh (.pwr true), .wait]

/-- R150: `PWROFFSEQ`: PWR is cleared only when the activation has been seen to complete. -/
def pwrOffSeq : List Uop := [.cmd 0x22, .dat 0xC3, .cmd 0x20, .wait, .sh (.pwr false)]

/-- R151: `RAMAREA(xs, xe, ys, ye)`. -/
def ramArea (w : Window) : List Uop :=
  [.cmd 0x44, .dat w.xs, .dat w.xe,
   .cmd 0x45, .dat (lo w.ys), .dat (hi w.ys), .dat (lo w.ye), .dat (hi w.ye), .sh (.window w)]

/-- R153: `RAMPTR(x, y)`. -/
def ramPtr (x : Byte) (y : U16) : List Uop := [.cmd 0x4E, .dat x, .cmd 0x4F, .dat (lo y), .dat (hi y)]

/-- R151, R153: a window and the counter at its starting corner. -/
def windowAndPointer (w : Window) : List Uop := ramArea w ++ ramPtr w.xs w.ys

/-- R152: `SETEMSEQ(em)`. -/
def setEmSeq (em : Byte) : List Uop :=
  let e := clampEntryMode em
  [.cmd 0x11, .dat (e.setWidth 8), .sh (.entryMode e)] ++ windowAndPointer (entryWindow e)

/-- R154: the ascending full-panel window of the fixed part of InitDisplay. -/
def fullWindow : Window := { xs := 0, xe := 15, ys := 0, ye := 249 }

/-- R154: `INITDISPSEQ(em)`. -/
def initDispSeq (P : Params) (em : Byte) : List Uop :=
  regWrite 0x74 P.reg.analog ++ regWrite 0x7E P.reg.digital ++ regWrite 0x01 P.reg.driver
    ++ ramArea fullWindow
    ++ regWrite 0x3C P.reg.border ++ regWrite 0x2C P.reg.vcom
    ++ regWrite 0x03 P.reg.gate ++ regWrite 0x04 P.reg.source
    ++ regWrite 0x3A P.reg.timingA ++ regWrite 0x3B P.reg.timingB
    ++ setEmSeq em

/-- R163: the multiplexer: the full table (selected when `full`) or the partial one, sent whole. -/
def lutSeq (P : Params) (full : Bool) : List Uop :=
  [.cmd 0x32, .burst (if full then P.lutFull else P.lutPart), .sh (.lutsel (if full then 1 else 2))]

/-- R157: the micro-program of InitFull. -/
def initFullSeq (P : Params) (em : Byte) : List Uop := initDispSeq P em ++ lutSeq P true ++ pwrOnSeq

/-- R158: the micro-program of InitPart, with the VCOM override between InitDisplay and the LUT upload. -/
def initPartSeq (P : Params) (em : Byte) : List Uop :=
  initDispSeq P em ++ regWrite 0x2C [P.vcomPart] ++ lutSeq P false ++ pwrOnSeq

/-! ### Operations -/

/-- R155: INITDISP. -/
def initdispOp (P : Params) (em : Byte) (s : State) : State := linkOp P (.initdisp em) (initDispSeq P em) s

/-- R156: SETEM. -/
def setemOp (P : Params) (em : Byte) (s : State) : State := linkOp P (.setem em) (setEmSeq em) s

/-- R157: INITFULL. -/
def initfullOp (P : Params) (em : Byte) (s : State) : State := linkOp P (.initfull em) (initFullSeq P em) s

/-- R158: INITPART. -/
def initpartOp (P : Params) (em : Byte) (s : State) : State := linkOp P (.initpart em) (initPartSeq P em) s

/-- R159: UPDFULL. -/
def updfullOp (P : Params) (s : State) : State := linkOp P .updfull updFullSeq s

/-- R160: UPDPART. -/
def updpartOp (P : Params) (s : State) : State := linkOp P .updpart updPartSeq s

/-- R161: PWRON. -/
def pwronOp (P : Params) (s : State) : State := linkOp P .pwron pwrOnSeq s

/-- R162: PWROFF. -/
def pwroffOp (P : Params) (s : State) : State := linkOp P .pwroff pwrOffSeq s

/-- R155 -/
def execInitdisp (em : Byte) (s : State) : Host.Outcome State Fault Refusal :=
  .next (initdispOp Config.params em s)

/-- R156 -/
def execSetem (em : Byte) (s : State) : Host.Outcome State Fault Refusal := .next (setemOp Config.params em s)

/-- R157 -/
def execInitfull (em : Byte) (s : State) : Host.Outcome State Fault Refusal :=
  .next (initfullOp Config.params em s)

/-- R158 -/
def execInitpart (em : Byte) (s : State) : Host.Outcome State Fault Refusal :=
  .next (initpartOp Config.params em s)

/-- R159 -/
def execUpdfull (s : State) : Host.Outcome State Fault Refusal := .next (updfullOp Config.params s)

/-- R160 -/
def execUpdpart (s : State) : Host.Outcome State Fault Refusal := .next (updpartOp Config.params s)

/-- R161 -/
def execPwron (s : State) : Host.Outcome State Fault Refusal := .next (pwronOp Config.params s)

/-- R162 -/
def execPwroff (s : State) : Host.Outcome State Fault Refusal := .next (pwroffOp Config.params s)

end Sys2Proof.Machine
end

