-- ==== Sys2Proof/Machine/Transport.lean ====
section
/-! DEFINITION. The transport family (`spec/40_transport.md` R131 to R135). Each operation has its
micro-program, its effect under any parameters, and the meaning `exec` calls. -/

namespace Sys2Proof.Machine

/-- R131: `RESETSEQ`, the panel-reset FSM R_LOW, R_SETTLE, R_BUSY. -/
def resetSeq : List Uop := [.rst false, .dly .rstLow, .rst true, .dly .rstSettle, .wait]

/-- R131: RESET. -/
def resetOp (P : Params) (s : State) : State := linkOp P .reset resetSeq s

/-- R132: WCMD, any Byte, listed or not. -/
def wcmdOp (P : Params) (b : Byte) (s : State) : State := linkOp P (.wcmd b) [.cmd b] s

/-- R133: WDAT. -/
def wdatOp (P : Params) (b : Byte) (s : State) : State := linkOp P (.wdat b) [.dat b] s

/-- R134: WDATN. With n = 0 its micro-program is `[BURST []]` (R134's form), where R136 (d) calls it the empty
micro-program: DESIGN CHOICE, log entry 21. -/
def wdatnOp (P : Params) (n : U16) (ds : List Byte) (s : State) : State := linkOp P (.wdatn n ds) [.burst ds] s

/-- R135: WAITB. -/
def waitbOp (P : Params) (s : State) : State := linkOp P .waitb [.wait] s

/-- R131 -/
def execReset (s : State) : Host.Outcome State Fault Refusal := .next (resetOp Config.params s)

/-- R132 -/
def execWcmd (b : Byte) (s : State) : Host.Outcome State Fault Refusal := .next (wcmdOp Config.params b s)

/-- R133 -/
def execWdat (b : Byte) (s : State) : Host.Outcome State Fault Refusal := .next (wdatOp Config.params b s)

/-- R134 -/
def execWdatn (n : U16) (ds : List Byte) (s : State) : Host.Outcome State Fault Refusal :=
  .next (wdatnOp Config.params n ds s)

/-- R135 -/
def execWaitb (s : State) : Host.Outcome State Fault Refusal := .next (waitbOp Config.params s)

end Sys2Proof.Machine
end

