-- ==== Sys2Proof/Machine/Refresh.lean ====
section
/-! DEFINITION. The refresh family (`spec/42_refresh.md`): the dual stream R181 and INIT, UPDATE, UPDWIN,
ERASE (R180, R182, R185, R188). The streamed Bytes are those of the framebuffer at acceptance (R25, R66). -/

namespace Sys2Proof.Machine

/-- R181: `DUAL(bs, gap, rp)`: current RAM first, previous RAM second, the same Bytes. -/
def dualStream (P : Params) (bs : List Byte) (gap rp : List Uop) : List Uop :=
  [.cmd 0x24, .burst bs] ++ gap ++ (if P.repointSecondBurst then rp else []) ++ [.cmd 0x26, .burst bs]

/-- R180: the micro-program of INIT. -/
def initSeq : List Uop := resetSeq ++ [.cmd 0x12, .wait]

/-- R182: the micro-program of UPDATE, a full refresh of the framebuffer's image ending with PowerOff. -/
def updateSeq (P : Params) (fb : List Host.Cell) : List Uop :=
  initFullSeq P (P.emUpdate.setWidth 8)
    ++ dualStream P (image P fb) [] (windowAndPointer (entryWindow P.emUpdate))
    ++ updFullSeq ++ pwrOffSeq

/-- R185: the micro-program of UPDWIN for a rectangle that is not empty; no PowerOff (R187). -/
def updwinRectSeq (P : Params) (fb : List Host.Cell) (r : Rect) : List Uop :=
  initPartSeq P 3 ++ windowAndPointer r.window
    ++ dualStream P (rectBytes P fb r) [.dly .streamSettle] (windowAndPointer r.window)
    ++ updPartSeq

/-- R185, R186: the micro-program of UPDWIN; an empty clipped rectangle has nothing to do. -/
def updwinSeq (P : Params) (fb : List Host.Cell) (x y w h : U16) : List Uop :=
  match clip x.toNat y.toNat w.toNat h.toNat with
  | none => []
  | some r => updwinRectSeq P fb r

/-- R188, R6: ERASE_BYTE, 4000 times; sent as it is, not through `xmit`. -/
def eraseBytes : List Byte := List.replicate 4000 0xFF

/-- R188: the micro-program of ERASE, entry mode EM_ERASE = 1. -/
def eraseSeq (P : Params) : List Uop :=
  initFullSeq P 1
    ++ dualStream P eraseBytes [] (windowAndPointer { xs := 0, xe := 15, ys := 249, ye := 0 })
    ++ updFullSeq ++ pwrOffSeq

/-- R180: INIT. -/
def initOp (P : Params) (s : State) : State := linkOp P .init initSeq s

/-- R182: UPDATE. -/
def updateOp (P : Params) (s : State) : State := linkOp P .update (updateSeq P s.fb) s

/-- R185: UPDWIN. -/
def updwinOp (P : Params) (x y w h : U16) (s : State) : State :=
  linkOp P (.updwin x y w h) (updwinSeq P s.fb x y w h) s

/-- R188: ERASE. -/
def eraseOp (P : Params) (s : State) : State := linkOp P .erase (eraseSeq P) s

/-- R180 -/
def execInit (s : State) : Host.Outcome State Fault Refusal := .next (initOp Config.params s)

/-- R182 -/
def execUpdate (s : State) : Host.Outcome State Fault Refusal := .next (updateOp Config.params s)

/-- R185 -/
def execUpdwin (x y w h : U16) (s : State) : Host.Outcome State Fault Refusal :=
  .next (updwinOp Config.params x y w h s)

/-- R188 -/
def execErase (s : State) : Host.Outcome State Fault Refusal := .next (eraseOp Config.params s)

end Sys2Proof.Machine
end

