-- ==== Sys2Proof/Machine/Dispatch.lean ====
section
/-! DEFINITION. The meaning of each instruction of the opcode table, one arm per constructor. -/

namespace Sys2Proof.Machine

def exec (i : Instr) (s : State) : Host.Outcome State Fault Refusal :=
  match i with
  | .reset => Sys2Proof.Machine.execReset s
  | .wcmd b => Sys2Proof.Machine.execWcmd b s
  | .wdat b => Sys2Proof.Machine.execWdat b s
  | .wdatn n ds => Sys2Proof.Machine.execWdatn n ds s
  | .waitb => Sys2Proof.Machine.execWaitb s
  | .initdisp em => Sys2Proof.Machine.execInitdisp em s
  | .setem em => Sys2Proof.Machine.execSetem em s
  | .initfull em => Sys2Proof.Machine.execInitfull em s
  | .initpart em => Sys2Proof.Machine.execInitpart em s
  | .updfull => Sys2Proof.Machine.execUpdfull s
  | .updpart => Sys2Proof.Machine.execUpdpart s
  | .pwron => Sys2Proof.Machine.execPwron s
  | .pwroff => Sys2Proof.Machine.execPwroff s
  | .init => Sys2Proof.Machine.execInit s
  | .update => Sys2Proof.Machine.execUpdate s
  | .updwin x y w h => Sys2Proof.Machine.execUpdwin x y w h s
  | .erase => Sys2Proof.Machine.execErase s
  | .fill c => Sys2Proof.Machine.execFill c s
  | .pixel x y c => Sys2Proof.Machine.execPixel x y c s
  | .getpix x y => Sys2Proof.Machine.execGetpix x y s
  | .setrot r => Sys2Proof.Machine.execSetrot r s
  | .clrf => Sys2Proof.Machine.execClrf s
  | .pDriverOutput => Sys2Proof.Machine.execPDriverOutput s
  | .pGateVoltage => Sys2Proof.Machine.execPGateVoltage s
  | .pSourceVoltage => Sys2Proof.Machine.execPSourceVoltage s
  | .pDataEntryMode => Sys2Proof.Machine.execPDataEntryMode s
  | .pSwReset => Sys2Proof.Machine.execPSwReset s
  | .pActivate => Sys2Proof.Machine.execPActivate s
  | .pUpdateControl => Sys2Proof.Machine.execPUpdateControl s
  | .pRamWriteCurrent => Sys2Proof.Machine.execPRamWriteCurrent s
  | .pRamWritePrevious => Sys2Proof.Machine.execPRamWritePrevious s
  | .pVcom => Sys2Proof.Machine.execPVcom s
  | .pLut => Sys2Proof.Machine.execPLut s
  | .pTimingA => Sys2Proof.Machine.execPTimingA s
  | .pTimingB => Sys2Proof.Machine.execPTimingB s
  | .pBorder => Sys2Proof.Machine.execPBorder s
  | .pRamXWindow => Sys2Proof.Machine.execPRamXWindow s
  | .pRamYWindow => Sys2Proof.Machine.execPRamYWindow s
  | .pRamXCounter => Sys2Proof.Machine.execPRamXCounter s
  | .pRamYCounter => Sys2Proof.Machine.execPRamYCounter s
  | .pAnalogBlock => Sys2Proof.Machine.execPAnalogBlock s
  | .pDigitalBlock => Sys2Proof.Machine.execPDigitalBlock s

end Sys2Proof.Machine
end

