-- ==== Sys2Proof/Machine/Expand.lean ====
section
/-! DEFINITION. `expand` (`spec/10_state.md` R24, R25): the micro-program of the link operation in the operand
latches, a pure function of the latches, the framebuffer and the parameters. -/

namespace Sys2Proof.Machine

/-- R25: `P = expand(OPC, A0..A3, PAYLOAD, FB, ROT)`; no operation but the seventeen link operations has one.
WDATN with n = 0 has the one µop `BURST []` (log entry 21). -/
def expand (P : Params) (s : State) : List Uop :=
  match s.opc.toNat with
  | 0x81 => resetSeq
  | 0x82 => [.cmd (lo s.a0)]
  | 0x83 => [.dat (lo s.a0)]
  | 0x84 => [.burst s.payload]
  | 0x85 => [.wait]
  | 0x90 => initDispSeq P (lo s.a0)
  | 0x91 => setEmSeq (lo s.a0)
  | 0x92 => initFullSeq P (lo s.a0)
  | 0x93 => initPartSeq P (lo s.a0)
  | 0x94 => updFullSeq
  | 0x95 => updPartSeq
  | 0x96 => pwrOnSeq
  | 0x97 => pwrOffSeq
  | 0xA0 => initSeq
  | 0xA1 => updateSeq P s.fb
  | 0xA2 => updwinSeq P s.fb s.a0 s.a1 s.a2 s.a3
  | 0xA3 => eraseSeq P
  | _ => []

/-- R24: the µop at UPC; `none` when UPC = `len(P)`. -/
def currentUop (P : Params) (s : State) : Option Uop := (expand P s)[s.upc.toNat]?

/-- The panel command a µop performs, if its Byte is one of the twenty (R96). -/
def Uop.panel : Uop → Option Instr
  | .cmd b => decodePanel b
  | .rst _ | .dly _ | .wait | .dat _ | .burst _ | .sh _ => none

end Sys2Proof.Machine
end

