-- ==== Sys2Proof/Machine/Request.lean ====
section
/-! DEFINITION. What one step does with the host's next request and with a running micro-program (R45, R90,
R92, R121), and where a table word is put so that the very next step runs it. -/

namespace Sys2Proof.Machine

/-- R92: a packet presented to the idle block: an illegal one sets ILL, a legal one is performed. -/
def stepPacket (bs : List Byte) (s : State) : Host.Outcome State Fault Refusal :=
  match decodePacket bs with
  | none => .next (rejectIllegal s)
  | some i => exec i s

/-- The same request, shown µop by µop: a link operation is accepted (R92) and its micro-program started
(R121), to be performed one µop a step. -/
def stepPacketStepwise (bs : List Byte) (s : State) : Host.Outcome State Fault Refusal :=
  match decodePacket bs with
  | none => .next (rejectIllegal s)
  | some i => if isLink i then .next (accept i startProgram s) else exec i s

/-- R121, R24: one µop of the running micro-program; the operation completes when UPC = `len(P)`. A CMD µop
of a listed opcode is that panel command (R95). -/
def stepRunning (s : State) : Host.Outcome State Fault Refusal :=
  match currentUop Config.params s with
  | none => .next (finishProgram s)
  | some u =>
    match u.panel with
    | some i => exec i s
    | none => .next (performOne Config.params u s)

/-- The state with a host packet as the next request and the block ready for it. -/
def placePacket (bs : List Byte) (s : State) : State :=
  { s with active := false, inbox := .packet bs :: s.inbox }

/-- The state in the midst of the micro-program `[CMD b]` (R132), its one µop the next to perform, and the
host presenting nothing for that step. -/
def placePanelCommand (b : Byte) (s : State) : State :=
  { s with active := true, opc := 0x82, a0 := byteOperand b, upc := 0, inbox := .nothing :: s.inbox }

/-- Bytes where the next step fetches: the one Byte of a listed panel command in the running micro-program,
anything else at the host interface. -/
def placeBytes (bs : List Byte) (s : State) : State :=
  match bs with
  | [b] => if (decodePanel b).isSome then placePanelCommand b s else placePacket [b] s
  | _ => placePacket bs s

end Sys2Proof.Machine
end

