-- ==== Sys2Proof/Machine/Step.lean ====
section
/-! DEFINITION. One step of the machine. The block reset input lands in any step (R320). While a link
operation runs the host is held off (R45) and the step performs one µop; otherwise it takes the host's next
request, and does nothing when there is none (R321). -/

namespace Sys2Proof.Machine

/-- R45, R121, R320, R321. -/
def step (s : State) : Host.Outcome State Fault Refusal :=
  match s.inbox, s.active with
  | .blockReset :: r, _ => .next (blockReset { s with inbox := r })
  | .nothing :: r, true => stepRunning { s with inbox := r }
  | .packet _ :: _, true => stepRunning s
  | .packetStepwise _ :: _, true => stepRunning s
  | [], true => stepRunning s
  | [], false => .next s
  | .nothing :: r, false => .next { s with inbox := r }
  | .packet bs :: r, false => stepPacket bs { s with inbox := r }
  | .packetStepwise bs :: r, false => stepPacketStepwise bs { s with inbox := r }

/-- The state whose very next step runs the instruction of an opcode-table word. -/
def State.withFetchWord (s : State) (nbits w : Nat) : State := placeBytes (tableBytes nbits w) s

end Sys2Proof.Machine
end

