-- ==== Sys2Proof/Machine/Panel.lean ====
section
/-! DEFINITION. The panel as the trace shows it. R95: which data Bytes belong to which command. R251: the
optional panel observer, from general knowledge of SSD16xx panels (GK6), "a model that uses it must mark it
assumed": log entry 8. It is a function of the trace, no part of State (R20), and no step reads it. -/

namespace Sys2Proof.Machine

/-- R95: the commands of a trace, each with the data Bytes up to the next command; data before the first
command belongs to none. Newest event first in, last command first out. -/
def commandsRev : List Event → List (Byte × List Byte)
  | [] => []
  | .cmd b :: es => (b, []) :: commandsRev es
  | .dat d :: es =>
    match commandsRev es with
    | (b, ds) :: r => (b, ds ++ [d]) :: r
    | [] => []
  | .rst _ :: es | .dly _ :: es | .poll _ :: es => commandsRev es

/-- R95: the panel commands of a trace with their data, in order. -/
def commandsOf (t : List Event) : List (Byte × List Byte) := (commandsRev t.reverse).reverse

/-- R251: the observer: entry mode, RAM window, RAM counter, the last command with the data it has had, and
the two image memories as functions of row and byte column. -/
structure Panel where
  em : BitVec 2
  xs : Byte
  xe : Byte
  ys : U16
  ye : U16
  cx : Byte
  cy : U16
  sel : Option Byte
  got : List Byte
  cur : U16 → Byte → Byte
  prev : U16 → Byte → Byte

namespace Panel

/-- R251: one Byte into an image memory of 16 × 250 Bytes at the counter. DESIGN CHOICE (log entry 8): with the
counter outside the memory, of which R251 says nothing, nothing is written. -/
def poke (p : Panel) (ram : U16 → Byte → Byte) (d : Byte) : U16 → Byte → Byte :=
  fun y x => if y = p.cy ∧ x = p.cx ∧ x.toNat < 16 ∧ y.toNat < 250 then d else ram y x

/-- R251: the counter after a RAM write: X steps first and returns to its start after its end, and then Y.
DESIGN CHOICE (log entry 8): "passes" is read as stepping on from exactly the end; a counter that stands outside
the window, of which R251 says nothing, steps modulo 256 (X) or 65536 (Y) until it meets the end. -/
def stepCounter (p : Panel) : Panel :=
  if p.cx = p.xe then
    { p with
      cx := p.xs
      cy := if p.cy = p.ye then p.ys else if p.em.getLsbD 1 then p.cy + 1 else p.cy - 1 }
  else { p with cx := if p.em.getLsbD 0 then p.cx + 1 else p.cx - 1 }

/-- R251: what the data Byte `d`, the last of `got`, does under command `c`. DESIGN CHOICE (log entry 8): of an entry
mode above 3, which only raw WCMD and WDAT can send and of which R251 says nothing, the 2-bit `em` keeps the low two
bits; the window and the counter keep the whole 8-bit column and 16-bit row sent. -/
def takeData (p : Panel) (c d : Byte) (got : List Byte) : Panel :=
  match c.toNat, got with
  | 0x11, [e] => { p with em := e.setWidth 2 }
  | 0x44, [a, b] => { p with xs := a, xe := b }
  | 0x45, [a, b, c, d] => { p with ys := b ++ a, ye := d ++ c }
  | 0x4E, [a] => { p with cx := a }
  | 0x4F, [a, b] => { p with cy := b ++ a }
  | 0x24, _ => stepCounter { p with cur := poke p p.cur d }
  | 0x26, _ => stepCounter { p with prev := poke p p.prev d }
  | _, _ => p

/-- R251: one link event. The observer says nothing of RST, delays and samples. DESIGN CHOICE (log entry 8): data
before the first command, of which R251 says nothing, are ignored. -/
def see (p : Panel) : Event → Panel
  | .cmd b => { p with sel := some b, got := [] }
  | .dat d =>
    match p.sel with
    | some c => { takeData p c d (p.got ++ [d]) with got := p.got ++ [d] }
    | none => p
  | .rst _ | .dly _ | .poll _ => p

/-- R251: the panel after a run of link events. -/
def observe (p : Panel) (t : List Event) : Panel := t.foldl see p

end Panel

end Sys2Proof.Machine
end

