-- ==== Sys2Proof/Machine/Under.lean ====
section
/-! DEFINITION. The instructions under any parameters: `execUnder P i s` is what `exec i s` would answer on a
block instantiated at `P` (`spec/00_scope.md` R7: "a claim that must hold for the real panel should quantify
over the parameter instead"). `exec` is its instance at `Config.params` (`Laws/Exec.lean`). -/

namespace Sys2Proof.Machine

/-- R7: the state after instruction `i` on a block with parameters `P`. -/
def execUnder (P : Params) (i : Instr) (s : State) : State :=
  match i with
  | .reset => resetOp P s
  | .wcmd b => wcmdOp P b s
  | .wdat b => wdatOp P b s
  | .wdatn n ds => wdatnOp P n ds s
  | .waitb => waitbOp P s
  | .initdisp em => initdispOp P em s
  | .setem em => setemOp P em s
  | .initfull em => initfullOp P em s
  | .initpart em => initpartOp P em s
  | .updfull => updfullOp P s
  | .updpart => updpartOp P s
  | .pwron => pwronOp P s
  | .pwroff => pwroffOp P s
  | .init => initOp P s
  | .update => updateOp P s
  | .updwin x y w h => updwinOp P x y w h s
  | .erase => eraseOp P s
  | .fill c => fillOp c s
  | .pixel x y c => pixelOp P x y c s
  | .getpix x y => getpixOp P x y s
  | .setrot r => setrotOp r s
  | .clrf => clrfOp s
  | .pDriverOutput => panelCommand P 0x01 s
  | .pGateVoltage => panelCommand P 0x03 s
  | .pSourceVoltage => panelCommand P 0x04 s
  | .pDataEntryMode => panelCommand P 0x11 s
  | .pSwReset => panelCommand P 0x12 s
  | .pActivate => panelCommand P 0x20 s
  | .pUpdateControl => panelCommand P 0x22 s
  | .pRamWriteCurrent => panelCommand P 0x24 s
  | .pRamWritePrevious => panelCommand P 0x26 s
  | .pVcom => panelCommand P 0x2C s
  | .pLut => panelCommand P 0x32 s
  | .pTimingA => panelCommand P 0x3A s
  | .pTimingB => panelCommand P 0x3B s
  | .pBorder => panelCommand P 0x3C s
  | .pRamXWindow => panelCommand P 0x44 s
  | .pRamYWindow => panelCommand P 0x45 s
  | .pRamXCounter => panelCommand P 0x4E s
  | .pRamYCounter => panelCommand P 0x4F s
  | .pAnalogBlock => panelCommand P 0x74 s
  | .pDigitalBlock => panelCommand P 0x7E s

end Sys2Proof.Machine
end

