-- ==== Sys2Proof/Safety.lean ====
section
/-! DEFINITION. The terms claims are stated in: the views of the state, the trace without its samples (R40),
what a completed micro-program leaves (R120, R130), a panel that answers in time (R43), the machine's
invariant, and the checks on micro-programs that R100 and R330 ask for. -/

namespace Sys2Proof.Machine

/-! ### Views of the state -/

/-- R22: the operand latches. -/
structure Latches where
  opc : Byte
  a0 : U16
  a1 : U16
  a2 : U16
  a3 : U16
  payload : List Byte
  deriving DecidableEq, Repr

@[inherit_doc Latches]
def State.latches (s : State) : Latches :=
  { opc := s.opc, a0 := s.a0, a1 := s.a1, a2 := s.a2, a3 := s.a3, payload := s.payload }

/-- R29: the shadow registers. -/
structure Shadows where
  emv : Bool
  em : BitVec 2
  winv : Bool
  win : Window
  lutsel : BitVec 2
  pwr : Bool
  deriving DecidableEq, Repr

@[inherit_doc Shadows]
def State.shadows (s : State) : Shadows :=
  { emv := s.emv, em := s.em, winv := s.winv
    win := { xs := s.wxs, xe := s.wxe, ys := s.wys, ye := s.wye }
    lutsel := s.lutsel, pwr := s.pwr }

/-- R28: the fault record, with the flag FAULT. -/
structure FaultRecord where
  fault : Bool
  cause : BitVec 2
  fop : Byte
  fupc : U16
  deriving DecidableEq, Repr

@[inherit_doc FaultRecord]
def State.record (s : State) : FaultRecord :=
  { fault := s.fault, cause := s.cause, fop := s.fop, fupc := s.fupc }

/-- R46, R296: the record of a block with no fault. -/
def noFault : FaultRecord := { fault := false, cause := 0, fop := 0, fupc := 0 }

/-! ### Traces -/

/-- R40: the trace "after deleting `Poll` events". -/
def noPolls (t : List Event) : List Event :=
  t.filter fun
    | .poll _ => false
    | .rst _ | .dly _ | .cmd _ | .dat _ => true

/-- R330, on a trace held newest first: every command Byte directly follows a sample that found BUSY low. -/
def commandsGuarded : List Event → Bool
  | .cmd _ :: .poll false :: es => commandsGuarded es
  | .cmd _ :: _ => false
  | _ :: es => commandsGuarded es
  | [] => true

/-! ### Micro-programs -/

/-- R130, R122: the shadows after one µop. -/
def Uop.shadowsAfter (h : Shadows) : Uop → Shadows
  | .sh (.entryMode e) => { h with em := e, emv := true }
  | .sh (.window w) => { h with win := w, winv := true }
  | .sh (.lutsel v) => { h with lutsel := v }
  | .sh (.pwr v) => { h with pwr := v }
  | .rst false => { h with emv := false, winv := false, lutsel := 0, pwr := false }
  | .rst true | .dly _ | .wait | .cmd _ | .dat _ | .burst _ => h

/-- The shadows after a whole micro-program. -/
def shadowsAfter (p : List Uop) (h : Shadows) : Shadows := p.foldl Uop.shadowsAfter h

/-- R129: a µop that waits for the panel, a WAIT or the precheck of a CMD. -/
def Uop.waits : Uop → Bool
  | .wait | .cmd _ => true
  | .rst _ | .dly _ | .dat _ | .burst _ | .sh _ => false

/-- R121: `p` performed from `s` with no fault raised; `none` if one was. -/
def performAll (P : Params) : List Uop → State → Option State
  | [], s => some s
  | u :: us, s =>
    match perform P u s with
    | .done t => performAll P us (advance t)
    | .raised _ => none

/-- How many busy waits a micro-program holds. -/
def waitCount (p : List Uop) : Nat := p.countP Uop.waits

/-- R24, R121: which µops a run leaves the RST pin low after (R131: between its `RST 0` and its `RST 1`). -/
def resetPinLow (opc : Byte) (upc : U16) : Bool := (opc == 0x81 || opc == 0xA0) && (upc == 1 || upc == 2)

/-- R100: every command Byte of a micro-program is one of the twenty. -/
def onlyListedCommands (p : List Uop) : Bool :=
  p.all fun
    | .cmd b => (decodePanel b).isSome
    | .rst _ | .dly _ | .wait | .dat _ | .burst _ | .sh _ => true

/-- R235, R330: every activation (0x20) is followed by a WAIT, with at most an SH between. -/
def activationsAwaited : List Uop → Bool
  | [] => true
  | .cmd b :: us =>
    (if b = 0x20 then
      match us with
      | .wait :: _ | .sh _ :: .wait :: _ => true
      | _ => false
    else true) && activationsAwaited us
  | _ :: us => activationsAwaited us

/-! ### The panel -/

/-- R43: "every run of consecutive asserted samples is shorter than BUSY_MAX_POLLS", of the runs that start
among the next `n` samples. -/
def Responsive (P : Params) (n : Nat) (s : State) : Prop :=
  ∀ k, k < n → ∃ j, j < P.busyMaxPolls ∧ upcomingBusy s (k + j) = false

/-- Enough answers for every busy wait of a micro-program. -/
def AnswersAll (P : Params) (p : List Uop) (s : State) : Prop := Responsive P (waitCount p * P.busyMaxPolls) s

/-- R292: the k-th sample from now is the first that finds BUSY deasserted. -/
def FirstReady (s : State) (k : Nat) : Prop := (∀ i, i < k → upcomingBusy s i = true) ∧ upcomingBusy s k = false

/-- R292: BUSY is asserted at every one of the next samples a wait would take. -/
def StuckBusy (P : Params) (s : State) : Prop := ∀ i, i < P.busyMaxPolls → upcomingBusy s i = true

/-! ### Acceptance -/

/-- R101: "Host opcodes 0x00..0x80, 0x86..0x8F, 0x98..0x9F, 0xA4..0xAF, 0xB4..0xEF and 0xF1..0xFF are reserved". -/
def reservedOpcode (op : Byte) : Bool :=
  let n := op.toNat
  decide (n ≤ 0x80 ∨ (0x86 ≤ n ∧ n ≤ 0x8F) ∨ (0x98 ≤ n ∧ n ≤ 0x9F) ∨ (0xA4 ≤ n ∧ n ≤ 0xAF)
    ∨ (0xB4 ≤ n ∧ n ≤ 0xEF) ∨ 0xF1 ≤ n)

/-- R91: the length the format of a packet's opcode fixes (for HN, 3 + n). -/
def formatLength (op : Byte) (body : List Byte) : Nat :=
  let n := op.toNat
  if n = 0x84 then 3 + ((body.getD 0 0).toNat + 256 * (body.getD 1 0).toNat)
  else if n = 0xA2 then 9
  else if n = 0xB1 then 6
  else if n = 0xB2 then 5
  else if n = 0x82 ∨ n = 0x83 ∨ (0x90 ≤ n ∧ n ≤ 0x93) ∨ n = 0xB0 ∨ n = 0xB3 then 2
  else 1

/-- R102: the packets that are illegal, in the spec's own terms (no Byte at all is no opcode). -/
def illegalPacket : List Byte → Bool
  | [] => true
  | op :: body =>
    reservedOpcode op || decide ((op :: body).length ≠ formatLength op body)
      || (op == 0xB0 && decide (2 ≤ (body.getD 0 0).toNat))
      || (op == 0xB1 && decide (2 ≤ (body.getD 4 0).toNat))
      || (op == 0xB3 && decide (3 < (body.getD 0 0).toNat))

/-- R22's table: what acceptance leaves in the latches; a Byte operand in the low 8 bits, the high 8 zero. -/
def acceptedLatches (i : Instr) (l : Latches) : Latches :=
  match i with
  | .reset => { l with opc := 0x81 }
  | .wcmd b => { l with opc := 0x82, a0 := b.zeroExtend 16 }
  | .wdat b => { l with opc := 0x83, a0 := b.zeroExtend 16 }
  | .wdatn n ds => { l with opc := 0x84, a0 := n, payload := ds }
  | .waitb => { l with opc := 0x85 }
  | .initdisp em => { l with opc := 0x90, a0 := em.zeroExtend 16 }
  | .setem em => { l with opc := 0x91, a0 := em.zeroExtend 16 }
  | .initfull em => { l with opc := 0x92, a0 := em.zeroExtend 16 }
  | .initpart em => { l with opc := 0x93, a0 := em.zeroExtend 16 }
  | .updfull => { l with opc := 0x94 }
  | .updpart => { l with opc := 0x95 }
  | .pwron => { l with opc := 0x96 }
  | .pwroff => { l with opc := 0x97 }
  | .init => { l with opc := 0xA0 }
  | .update => { l with opc := 0xA1 }
  | .updwin x y w h => { l with opc := 0xA2, a0 := x, a1 := y, a2 := w, a3 := h }
  | .erase => { l with opc := 0xA3 }
  | .fill c => { l with opc := 0xB0, a0 := c.zeroExtend 16 }
  | .pixel x y c => { l with opc := 0xB1, a0 := x, a1 := y, a2 := c.zeroExtend 16 }
  | .getpix x y => { l with opc := 0xB2, a0 := x, a1 := y }
  | .setrot r => { l with opc := 0xB3, a0 := r.zeroExtend 16 }
  | .clrf => { l with opc := 0xF0 }
  | .pDriverOutput | .pGateVoltage | .pSourceVoltage | .pDataEntryMode | .pSwReset => l
  | .pActivate | .pUpdateControl | .pRamWriteCurrent | .pRamWritePrevious | .pVcom => l
  | .pLut | .pTimingA | .pTimingB | .pBorder | .pRamXWindow => l
  | .pRamYWindow | .pRamXCounter | .pRamYCounter | .pAnalogBlock | .pDigitalBlock => l

/-- R93, R96: the rows that are panel commands. -/
def isPanel : Instr → Bool
  | .reset | .wcmd _ | .wdat _ | .wdatn _ _ | .waitb => false
  | .initdisp _ | .setem _ | .initfull _ | .initpart _ => false
  | .updfull | .updpart | .pwron | .pwroff => false
  | .init | .update | .updwin _ _ _ _ | .erase => false
  | .fill _ | .pixel _ _ _ | .getpix _ _ | .setrot _ | .clrf => false
  | .pDriverOutput | .pGateVoltage | .pSourceVoltage | .pDataEntryMode | .pSwReset => true
  | .pActivate | .pUpdateControl | .pRamWriteCurrent | .pRamWritePrevious | .pVcom => true
  | .pLut | .pTimingA | .pTimingB | .pBorder | .pRamXWindow => true
  | .pRamYWindow | .pRamXCounter | .pRamYCounter | .pAnalogBlock | .pDigitalBlock => true

/-! ### Completion and frame of a link operation -/

/-- R26: the link's pins at their idle levels (MOSI is don't-care, RST is the reset FSM's). -/
def LinkIdle (p : Pins) : Prop := p.cs = true ∧ p.dc = true ∧ p.sck = false

/-- What no link operation changes, whether it completes or faults: the framebuffer, ROT, the result register,
ILL, REJ, the host's requests; STALL is at most set (R27: sticky), and the pins and BIDX end idle when they
began so. -/
structure LinkFrame (s t : State) : Prop where
  fb : ∀ a, readByte t.fb a = readByte s.fb a
  rot : t.rot = s.rot
  result : t.rdata = s.rdata ∧ t.roob = s.roob
  ill : t.ill = s.ill
  rej : t.rej = s.rej
  inbox : t.inbox = s.inbox
  stall : s.stall = true → t.stall = true
  link : LinkIdle s.pins → LinkIdle t.pins
  rst : s.pins.rst = true → t.pins.rst = true
  bidx : s.bidx = 0 → t.bidx = 0

/-- Link operation `i` run to its end: the block idle again and the fault record as it was, the link events
`evs` appended to the trace (Poll events apart), the shadows `h`, the latches of acceptance, all else as it
was. -/
structure Completed (i : Instr) (evs : List Event) (h : Shadows) (s t : State) : Prop where
  idle : t.active = false ∧ t.upc = 0
  record : t.record = s.record
  trace : noPolls t.trace = noPolls s.trace ++ evs
  shadows : t.shadows = h
  latches : t.latches = acceptedLatches i s.latches
  frame : LinkFrame s t

/-- R296, R297: link operation `i` stopped by ControllerUnresponsive at µop `n`: the fault record, the link
idle, the link events `evs` of the µops before `n` appended to the trace and then, last, the bound's asserted
samples of the failed wait, the shadows `h` of the µops before `n`, all else as it was. -/
structure FaultedAt (i : Instr) (n : Nat) (evs : List Event) (h : Shadows) (s t : State) : Prop where
  idle : t.active = false ∧ t.upc = 0 ∧ t.bidx = 0 ∧ LinkIdle t.pins
  record : t.record = { fault := true, cause := 1, fop := opcodeOf i, fupc := BitVec.ofNat 16 n }
  pollcnt : t.pollcnt = Config.params.busyMaxPolls
  trace : noPolls t.trace = noPolls s.trace ++ evs
  lastSamples : List.replicate Config.params.busyMaxPolls (Event.poll true) <:+ t.trace
  shadows : t.shadows = h
  latches : t.latches = acceptedLatches i s.latches
  frame : LinkFrame s t

/-- Instruction `i` completes: from every idle state with no fault whose panel answers `waits` busy waits in
time, `exec i` answers a next state with the link events `evs` and the shadows `h`. -/
def CompletesWith (i : Instr) (waits : Nat) (evs : State → List Event) (h : Shadows → Shadows) : Prop :=
  ∀ s : State, s.active = false → s.fault = false →
    Responsive Config.params (waits * Config.params.busyMaxPolls) s →
    ∃ t, exec i s = .next t ∧ Completed i (evs s) (h s.shadows) s t

/-! ### The invariant -/

/-- The shadow window names byte columns and rows of the panel. -/
def WindowInPanel (s : State) : Prop :=
  s.wxs.toNat < 16 ∧ s.wxe.toNat < 16 ∧ s.wys.toNat < 250 ∧ s.wye.toNat < 250

/-- What every step keeps. -/
structure Inv (s : State) : Prop where
  /-- R72: the framebuffer is in canonical form, every address inside it. -/
  fb : Memory.wf s.fb
  /-- R26, R296: between µops the link is idle. -/
  link : LinkIdle s.pins
  /-- R291: CAUSE is 1 with a fault and 0 without, never 2 or 3. -/
  cause : s.cause = if s.fault then 1 else 0
  /-- R28, R220: with no fault the record is clear. -/
  record : s.fault = false → s.fop = 0 ∧ s.fupc = 0
  /-- R296, R300: no operation runs while a fault is pending. -/
  exclusive : s.fault = true → s.active = false
  /-- R24, R121: an idle block has UPC at 0 and RST high. -/
  idle : s.active = false → s.upc = 0 ∧ s.pins.rst = true
  /-- R24: a running block's UPC is inside its micro-program or at its end. -/
  running : s.active = true → s.upc.toNat ≤ (expand Config.params s).length
  /-- R131: a running block holds RST low between `RST 0` and `RST 1` and at no other µop. -/
  resetPin : s.active = true → s.pins.rst = !resetPinLow s.opc s.upc
  /-- R126: BIDX is 0 between µops. -/
  bidx : s.bidx = 0
  /-- R29: LUTSEL is 0, 1 or 2. -/
  lutsel : s.lutsel ≠ 3
  /-- R151, R152, R186 -/
  window : WindowInPanel s

end Sys2Proof.Machine
end

