-- ==== Sys2Proof/Certificates/Slice0/Obligations.lean ====
section
/-! DEFINITION. The statements for the provers, in the order of the spec's files. The namespace `Spec` writes
out, apart from the model's own generators, what the rules' tables and examples say is sent and left in the
shadow registers. Parameters stay symbolic throughout (`Config.params`), so no statement rests on a default of
`spec/00_scope.md` R7 (log entry 4) unless its docstring says so. -/

namespace Sys2Proof.Spec

open Sys2Proof.Machine

/-- A command Byte with DC at command-select, then its data Bytes (R95). -/
def command (c : Byte × List Byte) : List Event := .cmd c.1 :: c.2.map .dat

/-- The link events of a list of commands with their data. -/
def commands (l : List (Byte × List Byte)) : List Event := l.flatMap command

/-- R152's table: window and counter of each entry mode, every mode above 3 as 3. -/
def entryMode (em : Byte) : List (Byte × List Byte) :=
  match em.toNat with
  | 0 => [(0x11, [0]), (0x44, [15, 0]), (0x45, [249, 0, 0, 0]), (0x4E, [15]), (0x4F, [249, 0])]
  | 1 => [(0x11, [1]), (0x44, [0, 15]), (0x45, [249, 0, 0, 0]), (0x4E, [0]), (0x4F, [249, 0])]
  | 2 => [(0x11, [2]), (0x44, [15, 0]), (0x45, [0, 0, 249, 0]), (0x4E, [15]), (0x4F, [0, 0])]
  | _ => [(0x11, [3]), (0x44, [0, 15]), (0x45, [0, 0, 249, 0]), (0x4E, [0]), (0x4F, [0, 0])]

/-- R152: the shadows after the entry mode is set. -/
def entryShadows (em : Byte) (h : Shadows) : Shadows :=
  match em.toNat with
  | 0 => { h with emv := true, em := 0, winv := true, win := { xs := 15, xe := 0, ys := 249, ye := 0 } }
  | 1 => { h with emv := true, em := 1, winv := true, win := { xs := 0, xe := 15, ys := 249, ye := 0 } }
  | 2 => { h with emv := true, em := 2, winv := true, win := { xs := 15, xe := 0, ys := 0, ye := 249 } }
  | _ => { h with emv := true, em := 3, winv := true, win := { xs := 0, xe := 15, ys := 0, ye := 249 } }

/-- R154: the fixed registers in their order, then the entry mode. -/
def initDisplay (P : Params) (em : Byte) : List (Byte × List Byte) :=
  [(0x74, P.reg.analog), (0x7E, P.reg.digital), (0x01, P.reg.driver), (0x44, [0, 15]), (0x45, [0, 0, 249, 0]),
    (0x3C, P.reg.border), (0x2C, P.reg.vcom), (0x03, P.reg.gate), (0x04, P.reg.source),
    (0x3A, P.reg.timingA), (0x3B, P.reg.timingB)] ++ entryMode em

/-- R157: InitDisplay, the full table, PowerOn. -/
def initFull (P : Params) (em : Byte) : List (Byte × List Byte) :=
  initDisplay P em ++ [(0x32, P.lutFull), (0x22, [0xC0]), (0x20, [])]

/-- R158: InitDisplay, the VCOM override, the partial table, PowerOn. -/
def initPart (P : Params) (em : Byte) : List (Byte × List Byte) :=
  initDisplay P em ++ [(0x2C, [P.vcomPart]), (0x32, P.lutPart), (0x22, [0xC0]), (0x20, [])]

/-- R65: the Byte sent for a framebuffer Byte. -/
def sent (P : Params) (b : Byte) : Byte := if P.xmitInvert then 255 - b else b

/-- R66: the framebuffer in index order, as it is sent. -/
def wholeImage (P : Params) (fb : List Host.Cell) : List Byte :=
  (List.range 4000).map fun i => sent P (readByte fb i)

/-- R66: the Bytes of byte columns `xsb..xeb` of rows `ys..ye`, row by row, as they are sent. -/
def rectangle (P : Params) (fb : List Host.Cell) (xsb xeb ys ye : Nat) : List Byte :=
  (List.range (ye + 1 - ys)).flatMap fun j =>
    (List.range (xeb + 1 - xsb)).map fun i => sent P (readByte fb ((ys + j) * 16 + (xsb + i)))

/-- R151, R153: a window and the counter at its start, for columns below 256 and rows below 256. -/
def windowAt (xsb xeb ys ye : Nat) : List (Byte × List Byte) :=
  [(0x44, [BitVec.ofNat 8 xsb, BitVec.ofNat 8 xeb]), (0x45, [BitVec.ofNat 8 ys, 0, BitVec.ofNat 8 ye, 0]),
    (0x4E, [BitVec.ofNat 8 xsb]), (0x4F, [BitVec.ofNat 8 ys, 0])]

/-- R181: one list of Bytes to current RAM and then to previous RAM, `again` re-sent between them where the
parameter asks for it, after the events `gap`. -/
def dual (P : Params) (bs : List Byte) (gap : List Event) (again : List (Byte × List Byte)) : List Event :=
  command (0x24, bs) ++ gap ++ (if P.repointSecondBurst then commands again else []) ++ command (0x26, bs)

/-- R182, R188: InitFull, both streams, UpdateFull, PowerOff. -/
def fullRefresh (P : Params) (em : Byte) (bs : List Byte) : List Event :=
  commands (initFull P em) ++ dual P bs [] (entryMode em).tail
    ++ commands [(0x22, [0xC7]), (0x20, []), (0x22, [0xC3]), (0x20, [])]

/-- R185: InitPart(3), the window, both streams with the settle delay between, UpdatePart. -/
def partialRefresh (P : Params) (fb : List Host.Cell) (xsb xeb ys ye : Nat) : List Event :=
  commands (initPart P 3 ++ windowAt xsb xeb ys ye)
    ++ dual P (rectangle P fb xsb xeb ys ye) [.dly .streamSettle] (windowAt xsb xeb ys ye)
    ++ commands [(0x22, [0x04]), (0x20, [])]

/-- R122: what driving RST low leaves in the shadows. -/
def afterPanelReset (h : Shadows) : Shadows := { h with emv := false, winv := false, lutsel := 0, pwr := false }

/-- R131: the link events of the panel-reset sequence. -/
def panelReset : List Event := [.rst false, .dly .rstLow, .rst true, .dly .rstSettle]

/-- R25, D5: the operations whose micro-programs the block writes itself: sequencer and refresh. -/
def sequenced : Instr → Bool
  | .initdisp _ | .setem _ | .initfull _ | .initpart _ | .updfull | .updpart | .pwron | .pwroff
  | .init | .update | .updwin _ _ _ _ | .erase => true
  | .reset | .wcmd _ | .wdat _ | .wdatn _ _ | .waitb => false
  | .fill _ | .pixel _ _ _ | .getpix _ _ | .setrot _ | .clrf => false
  | .pDriverOutput | .pGateVoltage | .pSourceVoltage | .pDataEntryMode | .pSwReset | .pActivate | .pUpdateControl
  | .pRamWriteCurrent | .pRamWritePrevious | .pVcom | .pLut | .pTimingA | .pTimingB | .pBorder | .pRamXWindow
  | .pRamYWindow | .pRamXCounter | .pRamYCounter | .pAnalogBlock | .pDigitalBlock => false

/-- R96: the twenty panel commands with their Bytes. -/
def panelTable : List (Byte × Instr) :=
  [(0x01, .pDriverOutput), (0x03, .pGateVoltage), (0x04, .pSourceVoltage), (0x11, .pDataEntryMode),
    (0x12, .pSwReset), (0x20, .pActivate), (0x22, .pUpdateControl), (0x24, .pRamWriteCurrent),
    (0x26, .pRamWritePrevious), (0x2C, .pVcom), (0x32, .pLut), (0x3A, .pTimingA), (0x3B, .pTimingB),
    (0x3C, .pBorder), (0x44, .pRamXWindow), (0x45, .pRamYWindow), (0x4E, .pRamXCounter), (0x4F, .pRamYCounter),
    (0x74, .pAnalogBlock), (0x7E, .pDigitalBlock)]

/-- R96, column "data sent by the block": the data a panel command may carry. -/
def dataAllowed (P : Params) (c : Byte) (ds : List Byte) : Prop :=
  match c.toNat with
  | 0x01 => ds = P.reg.driver
  | 0x03 => ds = P.reg.gate
  | 0x04 => ds = P.reg.source
  | 0x11 => ∃ e : Byte, e.toNat ≤ 3 ∧ ds = [e]
  | 0x12 => ds = []
  | 0x20 => ds = []
  | 0x22 => ds = [0xC7] ∨ ds = [0x04] ∨ ds = [0xC0] ∨ ds = [0xC3]
  | 0x24 => 1 ≤ ds.length ∧ ds.length ≤ 4000
  | 0x26 => 1 ≤ ds.length ∧ ds.length ≤ 4000
  | 0x2C => ds = P.reg.vcom ∨ ds = [P.vcomPart]
  | 0x32 => ds = P.lutFull ∨ ds = P.lutPart
  | 0x3A => ds = P.reg.timingA
  | 0x3B => ds = P.reg.timingB
  | 0x3C => ds = P.reg.border
  | 0x44 => ∃ a b : Byte, a.toNat < 16 ∧ b.toNat < 16 ∧ ds = [a, b]
  | 0x45 => ∃ a b : Byte, a.toNat < 250 ∧ b.toNat < 250 ∧ ds = [a, 0, b, 0]
  | 0x4E => ∃ a : Byte, a.toNat < 16 ∧ ds = [a]
  | 0x4F => ∃ a : Byte, a.toNat < 250 ∧ ds = [a, 0]
  | 0x74 => ds = P.reg.analog
  | 0x7E => ds = P.reg.digital
  | _ => False

/-- The link events operation `i` sends when it runs to its end from a state like `s`. -/
def eventsOf (i : Instr) (s : State) : List Event := linkEvents (expand Config.params (latch i s))

/-- R186, over `Nat`: `r` is the clipped rectangle, and it is not empty. -/
def Clipped (x y w h : Nat) (r : Rect) : Prop :=
  (w ≠ 0 ∧ h ≠ 0 ∧ x < 128 ∧ y < 250) ∧
    r.xsb = x / 8 ∧ r.xeb = (min 128 (x + w) - 1) / 8 ∧ r.ys = y ∧ r.ye = min 250 (y + h) - 1

/-- R46's table; FB read Byte by Byte. -/
def TabledReset (t : State) : Prop :=
  (∀ i, i < 4000 → readByte t.fb i = 0x00) ∧
    t.latches = { opc := 0, a0 := 0, a1 := 0, a2 := 0, a3 := 0, payload := [] } ∧ t.rot = 0 ∧
    (t.active = false ∧ t.upc = 0 ∧ t.bidx = 0 ∧ t.pollcnt = 0) ∧
    t.pins = { sck := false, mosi := false, cs := true, dc := true, rst := true } ∧
    (t.fault = false ∧ t.stall = false ∧ t.ill = false ∧ t.rej = false) ∧
    (t.cause = 0 ∧ t.fop = 0 ∧ t.fupc = 0) ∧ (t.rdata = false ∧ t.roob = false) ∧
    t.shadows = { emv := false, em := 0, winv := false, win := { xs := 0, xe := 0, ys := 0, ye := 0 },
                  lutsel := 0, pwr := false } ∧
    t.trace = []

/-- R292: of the samples after the next `n`, the k-th is the first that finds BUSY deasserted. -/
def readyAfter (s : State) (n k : Nat) : Prop :=
  (∀ i, i < k → upcomingBusy s (n + i) = true) ∧ upcomingBusy s (n + k) = false

/-- R291: the first µop of an operation that waits for the panel. -/
def firstWait : Instr → Option Nat
  | .reset | .init => some 4
  | .updwin x y w h => if w = 0 ∨ h = 0 ∨ 128 ≤ x.toNat ∨ 250 ≤ y.toNat then none else some 0
  | .wcmd _ | .waitb | .initdisp _ | .setem _ | .initfull _ | .initpart _ | .updfull | .updpart | .pwron | .pwroff
  | .update | .erase => some 0
  | .wdat _ | .wdatn _ _ => none
  | .fill _ | .pixel _ _ _ | .getpix _ _ | .setrot _ | .clrf => none
  | .pDriverOutput | .pGateVoltage | .pSourceVoltage | .pDataEntryMode | .pSwReset | .pActivate | .pUpdateControl
  | .pRamWriteCurrent | .pRamWritePrevious | .pVcom | .pLut | .pTimingA | .pTimingB | .pBorder | .pRamXWindow
  | .pRamYWindow | .pRamXCounter | .pRamYCounter | .pAnalogBlock | .pDigitalBlock => none

/-- R204, R206: a physical pair inside the framebuffer. -/
def inside (p : Int × Int) : Prop := 0 ≤ p.1 ∧ p.1 < 128 ∧ 0 ≤ p.2 ∧ p.2 < 250

/-- R61: the Byte of a physical pixel inside the framebuffer. -/
def byteOf (p : Int × Int) : Nat := p.2.toNat * 16 + p.1.toNat / 8

/-- R62: the bit of a physical pixel, the leftmost pixel of a Byte its most significant bit. -/
def bitOf (p : Int × Int) : Byte := (0x80 : Byte) >>> (p.1.toNat % 8)

/-- R127: the bits of a Byte, most significant first, each with the levels of DC and CS. -/
def bitsSent (dc : Bool) (b : Byte) : List (Bool × Bool × Bool) :=
  [(b[7], dc, false), (b[6], dc, false), (b[5], dc, false), (b[4], dc, false),
    (b[3], dc, false), (b[2], dc, false), (b[1], dc, false), (b[0], dc, false)]

/-- R128: how often CS falls along a run of pin states that starts with CS at `cs`. -/
def csFalls (cs : Bool) : List Pins → Nat
  | [] => 0
  | q :: w => (if cs && !q.cs then 1 else 0) + csFalls q.cs w

/-- R297: every fault of link operation `i` is at a µop that waits, with exactly the µops before it performed. -/
def FaultsAtWaits (i : Instr) : Prop :=
  ∀ s t : State, s.active = false → s.fault = false → exec i s = .next t → t.fault = true →
    let p := expand Config.params (latch i s)
    ∃ n u, n < 65536 ∧ p[n]? = some u ∧ u.waits = true ∧
      FaultedAt i n (linkEvents (p.take n)) (shadowsAfter (p.take n) s.shadows) s t

/-- R91, R93: the packet of instruction `i` is `bs`, and `bs` is read as `i`. -/
def Encoded (i : Instr) (bs : List Byte) : Prop := encode i = bs ∧ decode bs = some i

/-- The head of the inbox is a request, by either of the model's two ways to show it, for operation `i`. -/
def requested (s : State) (i : Instr) : Prop :=
  ∃ bs r, decodePacket bs = some i ∧ (s.inbox = .packet bs :: r ∨ s.inbox = .packetStepwise bs :: r)

/-- The next input is the block's own reset. -/
def resetting (s : State) : Prop := ∃ r, s.inbox = .blockReset :: r

end Sys2Proof.Spec

open Sys2Proof Sys2Proof.Machine

/-! ### Reset -/

/-- R46: every element of the reset state, and of the state block reset leaves from any state, idle or running,
holds the value of the table. -/
def Obligations.BlockResetGivesTheTabledState : Prop :=
  Spec.TabledReset State.reset ∧
    ∀ (s : State) (r : List HostInput), s.inbox = .blockReset :: r →
      ∃ t, step s = .next t ∧ Spec.TabledReset t ∧ t.inbox = r

/-- R321: the idle block stays as it is, with no link activity, for as long as the host presents nothing, whatever
BUSY does and whatever requests follow; so does the block a block reset leaves, which is what R321 speaks of. The
model's choices: the input `nothing` and that it is used up (log entry 6), the levels of BUSY (log entry 7), and that a
block reset leaves the later inputs and the levels of BUSY as they are (log entry 11). -/
def Obligations.IdleBlockWaitsForTheHost : Prop :=
  (∀ s : State, s.active = false → (s.inbox = [] → step s = .next s) ∧
    ∀ r, s.inbox = .nothing :: r → step s = .next { s with inbox := r }) ∧
  (∀ (n m : Nat) (s : State), s.active = false → s.inbox = List.replicate m .nothing →
    Sys2Proof.core.run n s = .next { s with inbox := List.replicate (m - n) .nothing }) ∧
  ∀ (n m : Nat) (s : State) (r : List HostInput), n ≤ m → s.inbox = .blockReset :: (List.replicate m .nothing ++ r) →
    Sys2Proof.core.run (n + 1) s = .next { State.reset with
      inbox := List.replicate (m - n) .nothing ++ r, busy := s.busy, draws := s.draws }

/-! ### What holds along every run -/

/-- The invariant of `Safety.lean` holds after reset. -/
def Obligations.ResetMeetsTheInvariant : Prop := Inv State.reset

/-- From every state that meets the invariant, reachable or not, a step gives one that meets it. -/
def Obligations.StepKeepsTheInvariant : Prop := ∀ s t : State, Inv s → step s = .next t → Inv t

/-- R330: every command Byte directly follows a sample that found BUSY low; every activation of a sequencer or
refresh micro-program is followed by a WAIT; a DAT or BURST takes no sample, whatever BUSY is. -/
def Obligations.NoCommandWhileBusy : Prop :=
  (∀ s t : State, commandsGuarded s.traceRev = true → step s = .next t → commandsGuarded t.traceRev = true) ∧
    (∀ (P : Params) (i : Instr) (s : State), Spec.sequenced i = true →
      activationsAwaited (expand P (latch i s)) = true) ∧
    ∀ (P : Params) (u : Uop) (s : State), ((∃ b, u = .dat b) ∨ ∃ bs, u = .burst bs) →
      ∃ t, perform P u s = .done t ∧ t.trace = s.trace ++ u.linkEvents ∧ t.busy = s.busy ∧ t.draws = s.draws

/-- R40: TRACE is only ever appended to, but for block reset. -/
def Obligations.TraceOnlyGrows : Prop :=
  ∀ s t : State, ¬ Spec.resetting s → step s = .next t → ∃ l, t.trace = s.trace ++ l

/-- R24, R25: while an operation runs, a step moves UPC by exactly one, or ends the operation with UPC at 0, at
the end of its micro-program or by the fault; and the micro-program is the same at every µop. -/
def Obligations.UpcAdvancesByOneInAFixedMicroProgram : Prop :=
  ∀ s t : State, s.active = true → ¬ Spec.resetting s → step s = .next t →
    expand Config.params t = expand Config.params s ∧
      ((t.active = true ∧ t.upc = s.upc + 1 ∧ (currentUop Config.params s).isSome = true) ∨
        (t.active = false ∧ t.upc = 0 ∧ (currentUop Config.params s = none ∨ t.fault = true)))

/-- R45: while an operation runs the host is held off: its requests wait. The model's choices: a `nothing` is used
up by the µop performed (log entry 6), and `exec` of a host operation then leaves the state as it is (log entry 19). -/
def Obligations.HostIsHeldOffWhileActive : Prop :=
  (∀ s t : State, s.active = true → ¬ Spec.resetting s → step s = .next t →
      t.inbox = s.inbox ∨ s.inbox = .nothing :: t.inbox) ∧
    ∀ (i : Instr) (s : State), isPanel i = false → s.active = true → exec i s = .next s

/-- R27: STALL, ILL and REJ stay set, and FAULT too, until CLRF or block reset. -/
def Obligations.FlagsAreSticky : Prop :=
  ∀ s t : State, ¬ Spec.resetting s → ¬ (s.active = false ∧ Spec.requested s .clrf) → step s = .next t →
    (s.stall = true → t.stall = true) ∧ (s.ill = true → t.ill = true) ∧ (s.rej = true → t.rej = true) ∧
      (s.fault = true → t.fault = true)

/-- R21, R23, R28, R29: which instructions may write the framebuffer, ROT, the result register and the shadows;
the framebuffer and control operations touch neither the link nor ACTIVE. -/
def Obligations.OnlyTheNamedWritersWrite : Prop :=
  ∀ (i : Instr) (s t : State), exec i s = .next t →
    ((∀ c, i ≠ .fill c) → (∀ x y c, i ≠ .pixel x y c) → t.fb = s.fb) ∧
      ((∀ r, i ≠ .setrot r) → t.rot = s.rot) ∧
      ((∀ x y, i ≠ .getpix x y) → t.rdata = s.rdata ∧ t.roob = s.roob) ∧
      (isLink i = false → isPanel i = false →
        t.trace = s.trace ∧ t.pins = s.pins ∧ t.active = s.active ∧ t.upc = s.upc ∧ t.bidx = s.bidx ∧
          t.pollcnt = s.pollcnt) ∧
      (Spec.sequenced i = false → i ≠ .reset → t.shadows = s.shadows) ∧
      t.inbox = s.inbox

/-! ### Encodings -/

/-- R91, R95: decoding an encoded well-formed instruction gives it back, with every operand at every value. -/
def Obligations.DecodeOfEncode : Prop := ∀ i : Instr, i.wellFormed = true → decode (encode i) = some i

/-- R90, R91: what the decoder accepts is exactly what the encoder writes for that instruction. -/
def Obligations.EncodeOfDecode : Prop :=
  ∀ (bs : List Byte) (i : Instr), decode bs = some i → encode i = bs ∧ i.wellFormed = true

/-- R93 with R91: the packet of every host operation; host opcodes are at least 0x80, panel opcodes at most 0x7E. -/
def Obligations.PacketsDecodeAsTabled : Prop :=
  decodePacket [0x81] = some .reset ∧
    (∀ b, decodePacket [0x82, b] = some (.wcmd b)) ∧
    (∀ b, decodePacket [0x83, b] = some (.wdat b)) ∧
    (∀ l h : Byte, ∀ ds : List Byte, ds.length = l.toNat + 256 * h.toNat →
      decodePacket (0x84 :: l :: h :: ds) = some (.wdatn (h ++ l) ds)) ∧
    decodePacket [0x85] = some .waitb ∧
    (∀ em, decodePacket [0x90, em] = some (.initdisp em)) ∧
    (∀ em, decodePacket [0x91, em] = some (.setem em)) ∧
    (∀ em, decodePacket [0x92, em] = some (.initfull em)) ∧
    (∀ em, decodePacket [0x93, em] = some (.initpart em)) ∧
    decodePacket [0x94] = some .updfull ∧ decodePacket [0x95] = some .updpart ∧
    decodePacket [0x96] = some .pwron ∧ decodePacket [0x97] = some .pwroff ∧
    decodePacket [0xA0] = some .init ∧ decodePacket [0xA1] = some .update ∧
    (∀ xl xh yl yh wl wh hl hh : Byte, decodePacket [0xA2, xl, xh, yl, yh, wl, wh, hl, hh]
      = some (.updwin (xh ++ xl) (yh ++ yl) (wh ++ wl) (hh ++ hl))) ∧
    decodePacket [0xA3] = some .erase ∧
    (∀ c : Byte, c = 0 ∨ c = 1 → decodePacket [0xB0, c] = some (.fill c)) ∧
    (∀ xl xh yl yh c : Byte, c = 0 ∨ c = 1 →
      decodePacket [0xB1, xl, xh, yl, yh, c] = some (.pixel (xh ++ xl) (yh ++ yl) c)) ∧
    (∀ xl xh yl yh : Byte, decodePacket [0xB2, xl, xh, yl, yh] = some (.getpix (xh ++ xl) (yh ++ yl))) ∧
    (∀ r : Byte, r.toNat ≤ 3 → decodePacket [0xB3, r] = some (.setrot r)) ∧
    decodePacket [0xF0] = some .clrf ∧
    ∀ i : Instr, if isPanel i then (opcodeOf i).toNat ≤ 0x7E else 0x80 ≤ (opcodeOf i).toNat

/-- R96, R95: the twenty panel opcodes and no other Byte, each encoded in that one Byte. -/
def Obligations.PanelBytesDecodeAsTabled : Prop :=
  (∀ b : Byte, decodePanel b = Spec.panelTable.lookup b) ∧
    ∀ b i, (b, i) ∈ Spec.panelTable → encode i = [b] ∧ decode [b] = some i

/-- R105's and R131 to R234's example packets decode to their instructions (a sanity statement). -/
def Obligations.ExamplePacketsDecode : Prop :=
  decode [0xB1, 0x03, 0x00, 0x00, 0x00, 0x01] = some (.pixel 3 0 1) ∧
    decode [0xB1, 0xFF, 0xFF, 0x00, 0x80, 0x00] = some (.pixel 0xFFFF 0x8000 0) ∧
    decode [0x84, 0x03, 0x00, 0xFF, 0x00, 0xAA] = some (.wdatn 3 [0xFF, 0x00, 0xAA]) ∧
    decode [0xA2, 0x03, 0x00, 0x0A, 0x00, 0x0A, 0x00, 0x02, 0x00] = some (.updwin 3 10 10 2) ∧
    decode [0x82, 0x12] = some (.wcmd 0x12) ∧ decode [0x12] = some .pSwReset ∧ decode [0x91, 0x80] = some (.setem 0x80)

/-- R101, R102: the illegal packets are exactly those the rules list; presented to the idle block one sets ILL
and does nothing else, so later packets meet the block they would have met. -/
def Obligations.IllegalPacketsSetIllOnly : Prop :=
  (∀ bs : List Byte, decodePacket bs = none ↔ illegalPacket bs = true) ∧
    (∀ bs : List Byte, packetProblem bs = none ↔ illegalPacket bs = false) ∧
    ∀ (s : State) (bs : List Byte) (r : List HostInput), s.active = false → illegalPacket bs = true →
      (s.inbox = .packet bs :: r ∨ s.inbox = .packetStepwise bs :: r) →
        step s = .next { s with inbox := r, ill := true }

/-! ### Steps -/

/-- A step runs the decoded instruction: a legal packet presented to the idle block is `exec` of its operation with
the request taken. The block fetches nothing (R24, R77), so the second half is the model's choice (log entry 5): a
table word that `withFetchWord` presents as the next request is run as the instruction it decodes to, and the word of
a panel command as the one µop of a running WCMD of that Byte (log entry 2). -/
def Obligations.StepRunsTheDecodedInstruction : Prop :=
  (∀ (s : State) (bs : List Byte) (r : List HostInput) (i : Instr), s.active = false →
      s.inbox = .packet bs :: r → decodePacket bs = some i → step s = exec i { s with inbox := r }) ∧
    ∀ (s : State) (nbits w : Nat) (i : Instr), decodeTableWord nbits w = some i →
      (isPanel i = false → step (s.withFetchWord nbits w) = exec i { s with active := false }) ∧
        (isPanel i = true → step (s.withFetchWord nbits w) =
          exec i { s with active := true, opc := 0x82, a0 := (opcodeOf i).zeroExtend 16, upc := 0 })

/-- A step of a running operation performs its current µop: the panel command a CMD's Byte stands for, by `exec`;
any other µop by `performOne`; and at the end of the micro-program it ends the operation (R24, R95, R121). The model's
choices: a CMD of a listed Byte is `exec` of that panel command (log entry 2), and a `nothing` that comes next is used
up by the µop performed (log entry 6). -/
def Obligations.StepPerformsTheCurrentMicroOperation : Prop :=
  ∀ s : State, s.active = true → ¬ Spec.resetting s →
    let u := { s with inbox := if s.inbox.head? = some .nothing then s.inbox.tail else s.inbox }
    (∀ b i, currentUop Config.params s = some (.cmd b) → decodePanel b = some i → step s = exec i u) ∧
      (∀ b, currentUop Config.params s = some (.cmd b) → decodePanel b = none →
        step s = .next (performOne Config.params (.cmd b) u)) ∧
      (∀ o, currentUop Config.params s = some o → (∀ b, o ≠ .cmd b) →
        step s = .next (performOne Config.params o u)) ∧
      (currentUop Config.params s = none → step s = .next { u with active := false, upc := 0 })

/-- R121, R343: a link operation shown one µop a step (`packetStepwise`, log entry 6) reaches, in at most two steps
more than its micro-program has µops, exactly the state `exec` answers in one (log entry 1). Left out are runs in
which a `nothing` or a block reset comes next: those inputs land while the operation runs. -/
def Obligations.StepwiseRunMeetsExec : Prop :=
  ∀ (i : Instr) (s : State) (bs : List Byte) (r : List HostInput), isLink i = true → s.active = false →
    decodePacket bs = some i → s.inbox = .packetStepwise bs :: r →
    (r = [] ∨ ∃ cs q, r = .packet cs :: q ∨ r = .packetStepwise cs :: q) →
      ∃ n, n ≤ (expand Config.params (latch i s)).length + 2 ∧
        Sys2Proof.core.run n s = exec i { s with inbox := r }

/-! ### Acceptance -/

/-- R92: the order of acceptance. An illegal packet sets ILL and nothing else; a legal one loads the latches its
format names; a link operation under FAULT then sets REJ and does nothing else; else its rule is performed, which
for a link operation is its micro-program (R121). -/
def Obligations.AcceptanceOrder : Prop :=
  ∀ (s : State) (bs : List Byte) (r : List HostInput), s.active = false → s.inbox = .packet bs :: r →
    (illegalPacket bs = true → step s = .next { s with inbox := r, ill := true }) ∧
      ∀ i, decodePacket bs = some i →
        step s = exec i { s with inbox := r } ∧
          ∃ t, step s = .next t ∧ t.latches = acceptedLatches i s.latches ∧
            (isLink i = true → s.fault = true →
              t = { latch i s with inbox := r, rej := true } ∧
              (latch i s) = { s with opc := (latch i s).opc, a0 := (latch i s).a0, a1 := (latch i s).a1,
                                     a2 := (latch i s).a2, a3 := (latch i s).a3, payload := (latch i s).payload }) ∧
            (isLink i = true → s.fault = false →
              t = runProgram Config.params (expand Config.params (latch i s))
                (startProgram { latch i s with inbox := r }))

/-- R300: under FAULT a link operation is refused, its latches loaded, REJ set, nothing else changed; the
framebuffer operations do what they do with no fault pending, and so does CLRF, which clears FAULT. -/
def Obligations.LinkOperationsAreRefusedUnderFault : Prop :=
  (∀ (i : Instr) (s : State), isLink i = true → i.wellFormed = true → s.active = false → s.fault = true →
      ∃ t, exec i s = .next t ∧ t.latches = acceptedLatches i s.latches ∧
        t = { s with opc := t.opc, a0 := t.a0, a1 := t.a1, a2 := t.a2, a3 := t.a3, payload := t.payload,
                     rej := true }) ∧
    (∀ (i : Instr) (s : State), isLink i = false → isPanel i = false → i ≠ .clrf →
      ∃ t, exec i s = .next t ∧ exec i { s with fault := !s.fault } = .next { t with fault := !t.fault } ∧
        t.rej = s.rej) ∧
    ∀ s : State, s.active = false → ∃ t, exec .clrf s = .next t ∧ exec .clrf { s with fault := true } = .next t ∧
      t.fault = false

/-- R22: acceptance is what writes the latches: a host operation the idle block accepts loads those its format
names and leaves the others, whatever becomes of the operation; a panel command leaves them all. -/
def Obligations.AcceptanceLoadsTheLatches : Prop :=
  ∀ (i : Instr) (s : State), ∃ t, exec i s = .next t ∧
    (s.active = false → i.wellFormed = true → t.latches = acceptedLatches i s.latches) ∧
      (s.active = true → t.latches = s.latches) ∧ (i.wellFormed = false → t.latches = s.latches)

/-! ### Transport -/

/-- R292, R129: the busy wait. It returns at the first sample that is 0, if that is one of the first
BUSY_MAX_POLLS, having appended its samples and counted the asserted ones; else it takes exactly that many and
raises, with no sample more, and fault entry (R296) is all that it changes besides. -/
def Obligations.BusyWaitIsExact : Prop :=
  ∀ (P : Params) (log : Bool) (s : State), 1 ≤ P.busyMaxPolls →
    (∀ k, FirstReady s k → k < P.busyMaxPolls →
      ∃ t, waitBusy P log s = .done t ∧ t.pollcnt = k ∧
        t.trace = s.trace ++ List.replicate k (.poll true) ++ [.poll false] ∧
        (∀ j, upcomingBusy t j = upcomingBusy s (k + 1 + j)) ∧
        t = { s with pollcnt := k, stall := s.stall || (log && decide (0 < k)), traceRev := t.traceRev,
                     busy := t.busy, draws := t.draws }) ∧
      (StuckBusy P s → ∃ t, waitBusy P log s = .raised t ∧ t.pollcnt = P.busyMaxPolls ∧
        t.trace = s.trace ++ List.replicate P.busyMaxPolls (.poll true) ∧
        (∀ j, upcomingBusy t j = upcomingBusy s (P.busyMaxPolls + j)) ∧
        t.record = { fault := true, cause := 1, fop := s.opc, fupc := s.upc } ∧
        t = { s with pollcnt := P.busyMaxPolls, stall := s.stall || log, fault := true, cause := 1, fop := s.opc
                     fupc := s.upc, active := false, upc := 0, bidx := 0
                     pins := { s.pins with sck := false, cs := true, dc := true }
                     traceRev := t.traceRev, busy := t.busy, draws := t.draws })

/-- R131: RESET drives RST low, holds, drives it high, holds, and only then samples BUSY; the four valid
indications are cleared; an expired wait faults at µop 4 with RST high. -/
def Obligations.ResetOperation : Prop :=
  Spec.Encoded .reset [0x81] ∧ 10000 ≤ Delay.micros Config.params .rstLow ∧
    ∀ s : State, s.active = false → s.fault = false →
      (∀ k, FirstReady s k → k < Config.params.busyMaxPolls → ∃ t, exec .reset s = .next t ∧
        Completed .reset Spec.panelReset (Spec.afterPanelReset s.shadows) s t ∧
        t.trace = s.trace ++ Spec.panelReset ++ List.replicate k (.poll true) ++ [.poll false] ∧
        t.stall = s.stall ∧ t.pins = { s.pins with rst := true }) ∧
      (StuckBusy Config.params s → ∃ t, exec .reset s = .next t ∧
        FaultedAt .reset 4 Spec.panelReset (Spec.afterPanelReset s.shadows) s t ∧
        t.trace = s.trace ++ Spec.panelReset ++ List.replicate Config.params.busyMaxPolls (.poll true) ∧
        t.stall = s.stall ∧ t.pins.rst = true)

/-- R132: WCMD sends any Byte, listed or not, after the precheck; STALL is set if the precheck met BUSY; no
shadow changes; an expired precheck faults at µop 0 with no Byte sent. -/
def Obligations.WcmdOperation : Prop :=
  (∀ b, Spec.Encoded (.wcmd b) [0x82, b]) ∧
  ∀ (b : Byte) (s : State), s.active = false → s.fault = false →
    (∀ k, FirstReady s k → k < Config.params.busyMaxPolls → ∃ t, exec (.wcmd b) s = .next t ∧
      Completed (.wcmd b) [.cmd b] s.shadows s t ∧
      t.trace = s.trace ++ List.replicate k (.poll true) ++ [.poll false, .cmd b] ∧
      t.stall = (s.stall || decide (0 < k))) ∧
    (StuckBusy Config.params s → ∃ t, exec (.wcmd b) s = .next t ∧ FaultedAt (.wcmd b) 0 [] s.shadows s t ∧
      t.trace = s.trace ++ List.replicate Config.params.busyMaxPolls (.poll true) ∧ t.stall = true)

/-- R133, R134: WDAT and WDATN complete whatever BUSY does, with no sample taken; the data of a WDATN are one
BURST (one chip-select assertion, R128); an empty WDATN touches no pin. That its micro-program is R134's one empty BURST
and not R136's (d) empty list is the model's choice (log entry 21). -/
def Obligations.RawDataOperations : Prop :=
  (∀ b, Spec.Encoded (.wdat b) [0x83, b]) ∧
  (∀ (n : U16) (ds : List Byte), ds.length = n.toNat →
    Spec.Encoded (.wdatn n ds) (0x84 :: lo n :: hi n :: ds) ∧
      ∀ s : State, expand Config.params (latch (.wdatn n ds) s) = [.burst ds]) ∧
  ∀ s : State, s.active = false → s.fault = false →
    (∀ b : Byte, ∃ t, exec (.wdat b) s = .next t ∧ Completed (.wdat b) [.dat b] s.shadows s t ∧
      t.trace = s.trace ++ [.dat b] ∧
      t = { s with opc := 0x83, a0 := b.zeroExtend 16, upc := 0, traceRev := t.traceRev, pins := t.pins }) ∧
    ∀ (n : U16) (ds : List Byte), ds.length = n.toNat →
      ∃ t, exec (.wdatn n ds) s = .next t ∧ Completed (.wdatn n ds) (ds.map .dat) s.shadows s t ∧
        t.trace = s.trace ++ ds.map .dat ∧ (ds = [] → t.pins = s.pins) ∧
        t = { s with opc := 0x84, a0 := n, payload := ds, upc := 0, bidx := 0, traceRev := t.traceRev,
                     pins := t.pins }

/-- R135: WAITB waits, logs nothing, and faults at µop 0 when BUSY_MAX_POLLS samples in a row are 1. -/
def Obligations.WaitbOperation : Prop :=
  Spec.Encoded .waitb [0x85] ∧ ∀ s : State, s.active = false → s.fault = false →
    (∀ k, FirstReady s k → k < Config.params.busyMaxPolls → ∃ t, exec .waitb s = .next t ∧
      Completed .waitb [] s.shadows s t ∧
      t.trace = s.trace ++ List.replicate k (.poll true) ++ [.poll false] ∧ t.stall = s.stall ∧
      t.pins = s.pins) ∧
    (StuckBusy Config.params s → ∃ t, exec .waitb s = .next t ∧ FaultedAt .waitb 0 [] s.shadows s t ∧
      t.trace = s.trace ++ List.replicate Config.params.busyMaxPolls (.poll true) ∧ t.stall = s.stall)

/-- R122 to R126 at the pins: each µop's waveform ends at the pins the µop leaves. The panel samples a Byte's
bits most significant first on the rising edges of SCK, with CS low and DC at the Byte's level (R127); CS falls
once for a CMD, a DAT or a burst that is not empty, and an empty burst moves no pin (R128). -/
def Obligations.WavesCarryTheBytes : Prop :=
  (∀ (P : Params) (u : Uop) (s t : State), perform P u s = .done t →
      t.pins = (Uop.wave s.pins u).getLastD s.pins) ∧
    ∀ p : Pins, LinkIdle p →
      (∀ b : Byte, sampledBits p (Uop.wave p (.cmd b)) = Spec.bitsSent false b ∧
        Spec.csFalls p.cs (Uop.wave p (.cmd b)) = 1 ∧ ∀ q ∈ Uop.wave p (.cmd b), q.cs = false → q.dc = false) ∧
      (∀ b : Byte, sampledBits p (Uop.wave p (.dat b)) = Spec.bitsSent true b ∧
        Spec.csFalls p.cs (Uop.wave p (.dat b)) = 1 ∧ ∀ q ∈ Uop.wave p (.dat b), q.dc = true) ∧
      ∀ bs : List Byte, sampledBits p (Uop.wave p (.burst bs)) = bs.flatMap (Spec.bitsSent true) ∧
        (bs ≠ [] → Spec.csFalls p.cs (Uop.wave p (.burst bs)) = 1) ∧
        (bs = [] → Uop.wave p (.burst bs) = []) ∧ ∀ q ∈ Uop.wave p (.burst bs), q.dc = true

/-! ### Sequencer -/

/-- R156, R152: SETEM sends the mode, the full-panel window and the counter of the table, a mode above 3 as 3,
and the shadows record them. -/
def Obligations.SetemOperation : Prop :=
  ∀ em : Byte, Spec.Encoded (.setem em) [0x91, em] ∧ CompletesWith (.setem em) 5 (fun _ => Spec.commands (Spec.entryMode em)) (Spec.entryShadows em)

/-- R155, R154: INITDISP sends the nine fixed registers and the fixed window in order, then sets the entry mode. -/
def Obligations.InitdispOperation : Prop :=
  ∀ em : Byte, Spec.Encoded (.initdisp em) [0x90, em] ∧ CompletesWith (.initdisp em) 16 (fun _ => Spec.commands (Spec.initDisplay Config.params em))
    (Spec.entryShadows em)

/-- R157: INITFULL is InitDisplay, the full table, PowerOn. -/
def Obligations.InitfullOperation : Prop :=
  ∀ em : Byte, Spec.Encoded (.initfull em) [0x92, em] ∧ CompletesWith (.initfull em) 20 (fun _ => Spec.commands (Spec.initFull Config.params em))
    (fun h => { Spec.entryShadows em h with lutsel := 1, pwr := true })

/-- R158: INITPART overrides the VCOM Byte after the whole of InitDisplay and before the partial table. -/
def Obligations.InitpartOperation : Prop :=
  ∀ em : Byte, Spec.Encoded (.initpart em) [0x93, em] ∧ CompletesWith (.initpart em) 21 (fun _ => Spec.commands (Spec.initPart Config.params em))
    (fun h => { Spec.entryShadows em h with lutsel := 2, pwr := true })

/-- R159, R160: the two refresh activations; neither touches a shadow, and neither looks at LUTSEL or PWR. -/
def Obligations.UpdateActivations : Prop :=
  Spec.Encoded .updfull [0x94] ∧ Spec.Encoded .updpart [0x95] ∧
  CompletesWith .updfull 3 (fun _ => Spec.commands [(0x22, [0xC7]), (0x20, [])]) id ∧
    CompletesWith .updpart 3 (fun _ => Spec.commands [(0x22, [0x04]), (0x20, [])]) id

/-- R161: PWRON sets PWR once 0x20 has been sent, before the wait: a fault of the wait (µop 4) leaves it 1, an
earlier fault leaves it as it was. -/
def Obligations.PwronOperation : Prop :=
  Spec.Encoded .pwron [0x96] ∧
  CompletesWith .pwron 3 (fun _ => Spec.commands [(0x22, [0xC0]), (0x20, [])]) (fun h => { h with pwr := true }) ∧
    ∀ s t : State, s.active = false → s.fault = false → exec .pwron s = .next t → t.fault = true →
      t.pwr = if t.fupc = 4 then true else s.pwr

/-- R162: PWROFF clears PWR only when the final wait has returned: a fault anywhere in it leaves PWR as it was. -/
def Obligations.PwroffOperation : Prop :=
  Spec.Encoded .pwroff [0x97] ∧
  CompletesWith .pwroff 3 (fun _ => Spec.commands [(0x22, [0xC3]), (0x20, [])])
      (fun h => { h with pwr := false }) ∧
    ∀ s t : State, s.active = false → s.fault = false → exec .pwroff s = .next t → t.fault = true →
      t.pwr = s.pwr

/-- R163: the operation alone selects the table: full for INITFULL, UPDATE and ERASE, partial for INITPART and a
UPDWIN that is not empty; it is sent whole and unmodified after 0x32, once, and LUTSEL records which. -/
def Obligations.LutMultiplexerSendsTheWholeTable : Prop :=
  ∀ (P : Params) (s : State) (em : Byte) (x y w h : U16) (r : Rect), Spec.Clipped x.toNat y.toNat w.toNat h.toNat r →
    let tables := fun i => (commandsOf (linkEvents (expand P (latch i s)))).filter fun c => c.1 == 0x32
    tables (.initfull em) = [(0x32, P.lutFull)] ∧ tables .update = [(0x32, P.lutFull)] ∧
      tables .erase = [(0x32, P.lutFull)] ∧ tables (.initpart em) = [(0x32, P.lutPart)] ∧
      tables (.updwin x y w h) = [(0x32, P.lutPart)] ∧
      ∀ k : Shadows, let sel := fun i => (shadowsAfter (expand P (latch i s)) k).lutsel
        sel (.initfull em) = 1 ∧ sel .update = 1 ∧ sel .erase = 1 ∧ sel (.initpart em) = 2 ∧ sel (.updwin x y w h) = 2

/-- R164, R189: the lengths of the generators and micro-programs and the numbers of their events, for any
parameters. -/
def Obligations.MicroProgramLengths : Prop :=
  ∀ (P : Params) (s : State) (em : Byte) (x y w h : U16) (r : Rect),
    Spec.Clipped x.toNat y.toNat w.toNat h.toNat r →
      let len := fun i => (expand P (latch i s)).length
      let cmds := fun i => (linkEvents (expand P (latch i s))).countP fun | .cmd _ => true | _ => false
      let dats := fun i => (linkEvents (expand P (latch i s))).countP fun | .dat _ => true | _ => false
      let again := if P.repointSecondBurst then 14 else 0
      len (.setem em) = 17 ∧ len (.initdisp em) = 35 + P.reg.total ∧ len (.initfull em) = 43 + P.reg.total ∧
        len (.initpart em) = 45 + P.reg.total ∧ len .pwron = 5 ∧ len .pwroff = 5 ∧ len .updfull = 4 ∧
        len .updpart = 4 ∧ len .init = 7 ∧ len .update = 56 + P.reg.total + again ∧
        len .erase = 56 + P.reg.total + again ∧ len (.updwin x y w h) = 68 + P.reg.total + again ∧
        cmds (.initdisp em) = 16 ∧ dats (.initdisp em) = P.reg.total + 16 ∧
        (P.repointSecondBurst = false → cmds .update = 25 ∧ cmds .erase = 25 ∧
          dats .update = P.reg.total + P.lutFull.length + 8019 ∧
          dats .erase = P.reg.total + P.lutFull.length + 8019) ∧
        (linkEvents (expand P (latch (.initdisp em) s))).length + 3 = len (.initdisp em) ∧
        ((expand P (latch (.initdisp em) s)).countP fun | .sh _ => true | _ => false) = 3 ∧
        (∀ v, (ramArea v).length = 9) ∧ (∀ a b, (ramPtr a b).length = 5) ∧ (∀ f, (lutSeq P f).length = 3) ∧
        (∀ m, (act m).length = 4) ∧
        P.reg.total = P.reg.analog.length + P.reg.digital.length + P.reg.driver.length + P.reg.border.length
          + P.reg.vcom.length + P.reg.gate.length + P.reg.source.length + P.reg.timingA.length
          + P.reg.timingB.length

/-! ### Panel commands -/

/-- R230 to R249 with R124: each of the twenty panel commands, as the current µop of a running micro-program,
waits until BUSY is low, logs an asserted sample in STALL, sends its Byte with DC at command-select and advances
UPC; an expired precheck faults with no Byte sent. Everything else stays. With no operation running a panel
opcode is a reserved host opcode (R101): ILL is set and nothing else (log entry 2). -/
def Obligations.PanelCommandsSendTheirByte : Prop :=
  ∀ (b : Byte) (i : Instr), (b, i) ∈ Spec.panelTable →
    (illegalPacket [b] = true ∧ ∀ s : State, s.active = false → exec i s = .next { s with ill := true }) ∧
    ∀ s : State, s.active = true →
    (∀ k, FirstReady s k → k < Config.params.busyMaxPolls → ∃ t, exec i s = .next t ∧
      t.trace = s.trace ++ List.replicate k (.poll true) ++ [.poll false, .cmd b] ∧
      t = { s with upc := s.upc + 1, pollcnt := k, stall := s.stall || decide (0 < k)
                   pins := { s.pins with sck := false, mosi := b.getLsbD 0, cs := true, dc := true }
                   traceRev := t.traceRev, busy := t.busy, draws := t.draws }) ∧
    (StuckBusy Config.params s → ∃ t, exec i s = .next t ∧
      t.trace = s.trace ++ List.replicate Config.params.busyMaxPolls (.poll true) ∧
      t = { s with fault := true, cause := 1, fop := s.opc, fupc := s.upc, active := false, upc := 0, bidx := 0
                   pollcnt := Config.params.busyMaxPolls, stall := true
                   pins := { s.pins with sck := false, cs := true, dc := true }
                   traceRev := t.traceRev, busy := t.busy, draws := t.draws })

/-- R96, column "data sent by the block": every command of a sequencer or refresh micro-program is one of the
twenty and carries the data its row allows. -/
def Obligations.PanelDataIsAsTabled : Prop :=
  ∀ (P : Params) (i : Instr) (s : State), Spec.sequenced i = true →
    ∀ c ∈ commandsOf (linkEvents (expand P (latch i s))), Spec.dataAllowed P c.1 c.2

/-- R100: no sequencer or refresh micro-program holds a command outside the twenty; WCMD sends any Byte as it is. -/
def Obligations.OnlyListedPanelOpcodes : Prop :=
  (∀ (P : Params) (i : Instr) (s : State), Spec.sequenced i = true →
      onlyListedCommands (expand P (latch i s)) = true) ∧
    ∀ b : Byte, CompletesWith (.wcmd b) 1 (fun _ => [.cmd b]) id

/-- R30: whenever a sequencer or refresh micro-program reaches a BURST that follows CMD 0x24 or CMD 0x26, WINV is
1 and the burst has exactly as many Bytes as the shadow window. -/
def Obligations.StreamsMatchTheWindow : Prop :=
  ∀ (P : Params) (i : Instr) (s u t : State) (pre post : List Uop) (c : Byte) (bs : List Byte),
    Spec.sequenced i = true → expand P (latch i s) = pre ++ .cmd c :: .burst bs :: post → c = 0x24 ∨ c = 0x26 →
      performAll P (pre ++ [.cmd c]) u = some t →
        t.winv = true ∧ bs.length = (((t.wxe.toNat : Int) - t.wxs.toNat).natAbs + 1) *
          (((t.wye.toNat : Int) - t.wys.toNat).natAbs + 1)

/-! ### Refresh -/

/-- R180: INIT is the panel reset, the software reset, and a wait; the four valid indications are cleared. It can
fault at µops 4, 5 and 6 only. RST ends high, completed or not. STALL changes only at 5, the precheck: a run past
it ends with STALL set where it met BUSY, as it was where it did not. -/
def Obligations.InitOperation : Prop :=
  Spec.Encoded .init [0xA0] ∧
  CompletesWith .init 3 (fun _ => Spec.panelReset ++ [.cmd 0x12]) Spec.afterPanelReset ∧
    Spec.FaultsAtWaits .init ∧
    ∀ s t : State, s.active = false → s.fault = false → exec .init s = .next t →
      t.pins.rst = true ∧ (t.fault = true → t.fupc = 4 ∨ t.fupc = 5 ∨ t.fupc = 6) ∧
      (t.fault = true → t.fupc = 4 → t.stall = s.stall) ∧ (t.fault = true → t.fupc = 5 → t.stall = true) ∧
      (t.fault = false ∨ t.fupc = 6 → ∃ j k, FirstReady s j ∧ j < Config.params.busyMaxPolls ∧
        Spec.readyAfter s (j + 1) k ∧ k < Config.params.busyMaxPolls ∧ t.stall = (s.stall || decide (0 < k)))

/-- R182: UPDATE streams the framebuffer, in index order, to current and to previous RAM between InitFull and
UpdateFull, and ends with PowerOff; ROT is not consulted. A fault leaves PWR at the value it had reached. -/
def Obligations.UpdateOperation : Prop :=
  Spec.Encoded .update [0xA1] ∧
  CompletesWith .update (28 + if Config.params.repointSecondBurst then 4 else 0)
    (fun s => Spec.fullRefresh Config.params (Config.params.emUpdate.zeroExtend 8)
      (Spec.wholeImage Config.params s.fb))
    (fun h => { Spec.entryShadows (Config.params.emUpdate.zeroExtend 8) h with lutsel := 1, pwr := false }) ∧
  Spec.FaultsAtWaits .update

/-- R188: ERASE streams 4000 Bytes 0xFF to both RAMs, entry mode 1, whatever the framebuffer holds. -/
def Obligations.EraseOperation : Prop :=
  Spec.Encoded .erase [0xA3] ∧
  CompletesWith .erase (28 + if Config.params.repointSecondBurst then 4 else 0)
    (fun _ => Spec.fullRefresh Config.params 1 (List.replicate 4000 0xFF))
    (fun _ => { emv := true, em := 1, winv := true, win := { xs := 0, xe := 15, ys := 249, ye := 0 }
                lutsel := 1, pwr := false })

/-- R185, R187: UPDWIN of a rectangle that is not empty: InitPart(3), the clipped window, the rectangle's Bytes
to both RAMs with the settle delay between, UpdatePart, and no PowerOff: PWR ends 1. Of an empty rectangle: it
completes at once, with no link activity and no flag, whatever BUSY is, and under FAULT it is refused. -/
def Obligations.UpdwinOperation : Prop :=
  (∀ x y w h : U16, Spec.Encoded (.updwin x y w h) [0xA2, lo x, hi x, lo y, hi y, lo w, hi w, lo h, hi h]) ∧
  (∀ (x y w h : U16) (s : State), w = 0 ∨ h = 0 ∨ 128 ≤ x.toNat ∨ 250 ≤ y.toNat → s.active = false →
    (s.fault = false →
      exec (.updwin x y w h) s = .next { s with opc := 0xA2, a0 := x, a1 := y, a2 := w, a3 := h, upc := 0 }) ∧
    (s.fault = true →
      exec (.updwin x y w h) s = .next { s with opc := 0xA2, a0 := x, a1 := y, a2 := w, a3 := h, rej := true })) ∧
  ∀ (x y w h : U16) (r : Rect), Spec.Clipped x.toNat y.toNat w.toNat h.toNat r →
    CompletesWith (.updwin x y w h) (30 + if Config.params.repointSecondBurst then 4 else 0)
      (fun s => Spec.partialRefresh Config.params s.fb r.xsb r.xeb r.ys r.ye)
      (fun _ => { emv := true, em := 3, winv := true
                  win := { xs := BitVec.ofNat 8 r.xsb, xe := BitVec.ofNat 8 r.xeb
                           ys := BitVec.ofNat 16 r.ys, ye := BitVec.ofNat 16 r.ye }
                  lutsel := 2, pwr := true }) ∧
    Spec.FaultsAtWaits (.updwin x y w h)

/-- R186: clipping and widening, for any numbers: the columns sent are the Bytes that hold the requested pixels
of the panel, and no index is out of range. -/
def Obligations.ClipWidensAndNeverNarrows : Prop :=
  ∀ x y w h : Nat, (clip x y w h = none ↔ w = 0 ∨ h = 0 ∨ 128 ≤ x ∨ 250 ≤ y) ∧
    ∀ r, clip x y w h = some r ↔ Spec.Clipped x y w h r ∧
      (∀ px py, px < 128 → py < 250 → x ≤ px → px < x + w → y ≤ py → py < y + h →
        8 * r.xsb ≤ px ∧ px ≤ 8 * r.xeb + 7 ∧ r.ys ≤ py ∧ py ≤ r.ye) ∧
      (∀ i j, r.xsb ≤ i → i ≤ r.xeb → r.ys ≤ j → j ≤ r.ye → j * 16 + i ≤ 3999)

/-- R308: the PWR shadow after each operation that completed: 0 after UPDATE, ERASE, PWROFF, RESET and INIT, 1
after INITFULL, INITPART, PWRON and a UPDWIN that was not empty. -/
def Obligations.PowerShadowAfterCompletion : Prop :=
  ∀ (i : Instr) (s t : State), s.active = false → s.fault = false → exec i s = .next t → t.fault = false →
    (i = .update ∨ i = .erase ∨ i = .pwroff ∨ i = .reset ∨ i = .init → t.pwr = false) ∧
      ((∃ em, i = .initfull em ∨ i = .initpart em) ∨ i = .pwron ∨
        (∃ x y w h r, i = .updwin x y w h ∧ Spec.Clipped x.toNat y.toNat w.toNat h.toNat r) → t.pwr = true)

/-! ### The fault -/

/-- R296, R297: a link operation runs to its end, or stops at a µop that waits, with every µop before it
performed whole, of that µop its samples only, and none after it begun; fault entry leaves the record, the idle
link and everything else as the rule says, RST at 1 where it was 1 at acceptance. The precision is R297, which the
spec marks as derived. -/
def Obligations.FaultIsPrecise : Prop :=
  ∀ (i : Instr) (s : State), isLink i = true → i.wellFormed = true → s.active = false → s.fault = false →
    let p := expand Config.params (latch i s)
    ∃ t, exec i s = .next t ∧
      (Completed i (linkEvents p) (shadowsAfter p s.shadows) s t ∨
        ∃ n u, n < 65536 ∧ p[n]? = some u ∧ u.waits = true ∧
          FaultedAt i n (linkEvents (p.take n)) (shadowsAfter (p.take n) s.shadows) s t)

/-- R291: with BUSY stuck every link operation but WDAT, WDATN and an empty UPDWIN raises the fault, at its first
µop that waits; CAUSE is never 2 or 3. -/
def Obligations.StuckPanelFaultsAtTheFirstWait : Prop :=
  (∀ (i : Instr) (s : State), isLink i = true → i.wellFormed = true → s.active = false → s.fault = false →
      StuckBusy Config.params s →
        let p := expand Config.params (latch i s)
        ∃ t, exec i s = .next t ∧
          match Spec.firstWait i with
          | some n => FaultedAt i n (linkEvents (p.take n)) (shadowsAfter (p.take n) s.shadows) s t
          | none => Completed i (linkEvents p) s.shadows s t) ∧
    ∀ (i : Instr) (s t : State), s.cause = 0 ∨ s.cause = 1 → exec i s = .next t → t.cause = 0 ∨ t.cause = 1

/-- R220, R301: CLRF clears the fault record and the sticky flags, fault or no fault, and changes nothing else; with a
fault pending no other instruction changes the record, and none starts. That `exec` of CLRF while an operation runs
leaves the state as it is, is the model's choice (log entry 19): R220 says that it cannot be issued then. -/
def Obligations.ClrfIsTheReturnAndFaultsDoNotNest : Prop :=
  Spec.Encoded .clrf [0xF0] ∧
  (∀ s : State, s.active = false → exec .clrf s = .next
      { s with opc := 0xF0, fault := false, cause := 0, fop := 0, fupc := 0, stall := false, ill := false
               rej := false }) ∧
    (∀ s : State, s.active = true → exec .clrf s = .next s) ∧
    ∀ (i : Instr) (s t : State), s.fault = true → s.active = false → i ≠ .clrf → exec i s = .next t →
      t.active = false ∧ t.record = s.record

/-! ### Framebuffer -/

/-- R200: FILL writes every Byte, is idempotent, and changes nothing else; a colour operand with bits 7:1 not
all zero makes the packet illegal. -/
def Obligations.FillOperation : Prop :=
  ∀ (c : Byte) (s : State), s.active = false →
    (c = 0 ∨ c = 1 → Spec.Encoded (.fill c) [0xB0, c] ∧ ∃ t, exec (.fill c) s = .next t ∧
      (∀ a, a < 4000 → readByte t.fb a = if c = 1 then 0xFF else 0x00) ∧ Memory.wf t.fb ∧
      t = { s with opc := 0xB0, a0 := c.zeroExtend 16, fb := t.fb } ∧ exec (.fill c) t = .next t) ∧
    (c ≠ 0 → c ≠ 1 → exec (.fill c) s = .next { s with ill := true })

/-- R204: PIXEL rotates, clips silently, and sets or clears one bit: the Byte at the pixel's address, and no
other Byte of memory, may change; a pixel outside changes nothing. -/
def Obligations.PixelOperation : Prop :=
  ∀ (x y : U16) (c : Byte) (s : State), s.active = false → Memory.wf s.fb →
    let p := Config.params.rotXform s.rot x.toInt y.toInt
    (c = 0 ∨ c = 1 → Spec.Encoded (.pixel x y c) [0xB1, lo x, hi x, lo y, hi y, c] ∧
      ∃ t, exec (.pixel x y c) s = .next t ∧
      t = { s with opc := 0xB1, a0 := x, a1 := y, a2 := c.zeroExtend 16, fb := t.fb } ∧
      (Spec.inside p → ∀ a, readByte t.fb a =
        if a = Spec.byteOf p then
          (if c = 1 then readByte s.fb a ||| Spec.bitOf p else readByte s.fb a &&& ~~~ Spec.bitOf p)
        else readByte s.fb a) ∧
      (¬ Spec.inside p → t.fb = s.fb)) ∧
    (c ≠ 0 → c ≠ 1 → exec (.pixel x y c) s = .next { s with ill := true })

/-- R206: GETPIX reads the pixel's bit into RDATA, or White with ROOB set when it is outside, and writes nothing
else. -/
def Obligations.GetpixOperation : Prop :=
  ∀ (x y : U16) (s : State), s.active = false →
    let p := Config.params.rotXform s.rot x.toInt y.toInt
    Spec.Encoded (.getpix x y) [0xB2, lo x, hi x, lo y, hi y] ∧
    (Spec.inside p → exec (.getpix x y) s = .next
      { s with opc := 0xB2, a0 := x, a1 := y
               rdata := decide (readByte s.fb (Spec.byteOf p) &&& Spec.bitOf p ≠ 0), roob := false }) ∧
    (¬ Spec.inside p → exec (.getpix x y) s = .next
      { s with opc := 0xB2, a0 := x, a1 := y, rdata := false, roob := true })

/-- R208: SETROT sets ROT and moves no pixel; an operand above 3 makes the packet illegal. No instruction but
PIXEL and GETPIX sees the rotation. -/
def Obligations.SetrotOperation : Prop :=
  ∀ (r : Byte) (s : State), s.active = false →
    (r.toNat ≤ 3 → Spec.Encoded (.setrot r) [0xB3, r] ∧ exec (.setrot r) s = .next
      { s with opc := 0xB3, a0 := r.zeroExtend 16, rot := BitVec.ofNat 2 r.toNat }) ∧
    (3 < r.toNat → exec (.setrot r) s = .next { s with ill := true }) ∧
    ∀ (i : Instr) (v : BitVec 2), (∀ x y c, i ≠ .pixel x y c) → (∀ x y, i ≠ .getpix x y) → (∀ q, i ≠ .setrot q) →
      ∃ t, exec i s = .next t ∧ exec i { s with rot := v } = .next { t with rot := v }

/-- R207: the read-back law, for every rotation and every transform that meets R202; `exec` is the instance at
this machine's parameters. -/
def Obligations.ReadBackLaw : Prop :=
  (∀ (i : Instr) (s : State), exec i s = .next (execUnder Config.params i s)) ∧
  ∀ (P : Params) (x y : U16) (c : Byte) (s : State), RotationLaws P.rotXform → s.active = false →
    Memory.wf s.fb → c = 0 ∨ c = 1 →
      let at_ := fun (u v : U16) => P.rotXform s.rot u.toInt v.toInt
      let t := execUnder P (.pixel x y c) s
      (Spec.inside (at_ x y) →
        (execUnder P (.getpix x y) t).rdata = decide (c = 1) ∧ (execUnder P (.getpix x y) t).roob = false ∧
        ∀ u v : U16, (u, v) ≠ (x, y) → Spec.inside (at_ u v) →
          (execUnder P (.getpix u v) t).rdata = (execUnder P (.getpix u v) s).rdata) ∧
      (¬ Spec.inside (at_ x y) → t.fb = s.fb)

/-- R203, R210: the spec's default transform, which logical pairs it maps inside the framebuffer, which it maps to
a visible column, and how far it can go for I16 operands; this machine's transform is the default (log entry 4). -/
def Obligations.DefaultRotationRanges : Prop :=
  Config.params.rotXform = defaultRotation ∧
  ∀ x y : Int,
    let visible := fun p : Int × Int => 0 ≤ p.1 ∧ p.1 ≤ 121 ∧ 0 ≤ p.2 ∧ p.2 ≤ 249
    (defaultRotation 0 x y = (x, y) ∧ defaultRotation 1 x y = (121 - y, x) ∧
      defaultRotation 2 x y = (121 - x, 249 - y) ∧ defaultRotation 3 x y = (y, 249 - x)) ∧
    (inBounds (defaultRotation 0 x y) = true ↔ 0 ≤ x ∧ x ≤ 127 ∧ 0 ≤ y ∧ y ≤ 249) ∧
    (inBounds (defaultRotation 1 x y) = true ↔ 0 ≤ x ∧ x ≤ 249 ∧ -6 ≤ y ∧ y ≤ 121) ∧
    (inBounds (defaultRotation 2 x y) = true ↔ -6 ≤ x ∧ x ≤ 121 ∧ 0 ≤ y ∧ y ≤ 249) ∧
    (inBounds (defaultRotation 3 x y) = true ↔ 0 ≤ x ∧ x ≤ 249 ∧ 0 ≤ y ∧ y ≤ 127) ∧
    (visible (defaultRotation 0 x y) ↔ 0 ≤ x ∧ x ≤ 121 ∧ 0 ≤ y ∧ y ≤ 249) ∧
    (visible (defaultRotation 1 x y) ↔ 0 ≤ x ∧ x ≤ 249 ∧ 0 ≤ y ∧ y ≤ 121) ∧
    (visible (defaultRotation 2 x y) ↔ 0 ≤ x ∧ x ≤ 121 ∧ 0 ≤ y ∧ y ≤ 249) ∧
    (visible (defaultRotation 3 x y) ↔ 0 ≤ x ∧ x ≤ 249 ∧ 0 ≤ y ∧ y ≤ 121) ∧
    (∀ r, -32768 ≤ x → x ≤ 32767 → -32768 ≤ y → y ≤ 32767 →
      -32768 ≤ (defaultRotation r x y).1 ∧ (defaultRotation r x y).1 ≤ 33017 ∧
        -32768 ≤ (defaultRotation r x y).2 ∧ (defaultRotation r x y).2 ≤ 33017)

/-! ### What the panel ends up with -/

/-- R251, under the panel observer of log entry 8 (general knowledge, assumed) and the default EM_UPDATE and
XMIT_INVERT of log entry 4: after an UPDATE that completed, whatever the panel was, both image memories hold the
complement of the framebuffer. -/
def Obligations.UpdateReachesThePanel : Prop :=
  ∀ (s t : State) (p : Panel), s.active = false → s.fault = false → exec .update s = .next t → t.fault = false →
    ∃ l, t.trace = s.trace ++ l ∧ ∀ y x, y < 250 → x < 16 →
      (p.observe l).cur (BitVec.ofNat 16 y) (BitVec.ofNat 8 x) = 255 - readByte s.fb (16 * y + x) ∧
      (p.observe l).prev (BitVec.ofNat 16 y) (BitVec.ofNat 8 x) = 255 - readByte s.fb (16 * y + x)

/-- R251, under the same observer: after an ERASE that completed both image memories hold 0xFF everywhere. -/
def Obligations.EraseClearsThePanel : Prop :=
  ∀ (s t : State) (p : Panel), s.active = false → s.fault = false → exec .erase s = .next t → t.fault = false →
    ∃ l, t.trace = s.trace ++ l ∧ ∀ y x, y < 250 → x < 16 →
      (p.observe l).cur (BitVec.ofNat 16 y) (BitVec.ofNat 8 x) = 0xFF ∧
      (p.observe l).prev (BitVec.ofNat 16 y) (BitVec.ofNat 8 x) = 0xFF

/-- R185, R251, under the same observer and the default XMIT_INVERT of log entry 4: after a UPDWIN that completed both image
memories hold the complement of the framebuffer inside the widened rectangle, and outside it what they held. -/
def Obligations.UpdwinReachesItsRectangle : Prop :=
  ∀ (x y w h : U16) (r : Rect) (s t : State) (p : Panel), Spec.Clipped x.toNat y.toNat w.toNat h.toNat r →
    s.active = false → s.fault = false → exec (.updwin x y w h) s = .next t → t.fault = false →
      ∃ l, t.trace = s.trace ++ l ∧ ∀ j i, j < 250 → i < 16 →
        let here : U16 × Byte := (BitVec.ofNat 16 j, BitVec.ofNat 8 i)
        if r.ys ≤ j ∧ j ≤ r.ye ∧ r.xsb ≤ i ∧ i ≤ r.xeb then
          (p.observe l).cur here.1 here.2 = 255 - readByte s.fb (16 * j + i) ∧
            (p.observe l).prev here.1 here.2 = 255 - readByte s.fb (16 * j + i)
        else (p.observe l).cur here.1 here.2 = p.cur here.1 here.2 ∧
          (p.observe l).prev here.1 here.2 = p.prev here.1 here.2

/-! ### Fault entry, µop by µop -/

/-- R296: fault entry, at the µop that raised: the record, the sequencer and the link idle, POLLCNT at the bound, the
trace ending with that many asserted samples and nothing more, the host released and shown the fault; of the rest
only STALL may have changed, set by a precheck before entry (R129). RST is 1 there: in every state of a running
operation that meets the invariant, a µop that waits finds it so. -/
def Obligations.FaultEntryLeavesTheRecordAndTheIdleLink : Prop :=
  (∀ (P : Params) (u : Uop) (s t : State), 1 ≤ P.busyMaxPolls → perform P u s = .raised t →
    u.waits = true ∧ t.trace = s.trace ++ List.replicate P.busyMaxPolls (.poll true) ∧
      (hostView t).faultO = true ∧ (hostView t).ready = true ∧
      t = { s with fault := true, cause := 1, fop := s.opc, fupc := s.upc, active := false, upc := 0, bidx := 0
                   pollcnt := P.busyMaxPolls, stall := s.stall || decide (u ≠ .wait)
                   pins := { s.pins with sck := false, cs := true, dc := true }
                   traceRev := t.traceRev, busy := t.busy, draws := t.draws }) ∧
    ∀ (s : State) (u : Uop), Inv s → s.active = true → currentUop Config.params s = some u → u.waits = true →
      s.pins.rst = true ∧ LinkIdle s.pins
end

