-- ==== Sys2Proof/Laws/Bits.lean ====
section
/-! SUPPORT. The two Bytes of a 16-bit value (R10, R91): splitting and joining, as numbers and as inverses. -/

namespace Sys2Proof.Machine

theorem lo_toNat (v : U16) : (lo v).toNat = v.toNat % 256 := by simp [lo]

theorem hi_toNat (v : U16) : (hi v).toNat = v.toNat / 256 := by
  have := v.isLt
  simp [hi, Nat.shiftRight_eq_div_pow]
  omega

/-- R91: low Byte first. -/
theorem joinBytes_toNat (l h : Byte) : (joinBytes l h).toNat = l.toNat + 256 * h.toNat := by
  have := l.isLt
  unfold joinBytes
  rw [BitVec.toNat_append, Nat.shiftLeft_eq, show h.toNat * 2 ^ 8 = 2 ^ 8 * h.toNat by omega,
    ← Nat.two_pow_add_eq_or_of_lt (by omega)]
  omega

@[simp] theorem joinBytes_lo_hi (v : U16) : joinBytes (lo v) (hi v) = v := by
  apply BitVec.eq_of_toNat_eq
  rw [joinBytes_toNat, lo_toNat, hi_toNat]
  omega

@[simp] theorem lo_joinBytes (l h : Byte) : lo (joinBytes l h) = l := by
  have := l.isLt
  apply BitVec.eq_of_toNat_eq
  rw [lo_toNat, joinBytes_toNat]
  omega

@[simp] theorem hi_joinBytes (l h : Byte) : hi (joinBytes l h) = h := by
  have := l.isLt
  apply BitVec.eq_of_toNat_eq
  rw [hi_toNat, joinBytes_toNat]
  omega

end Sys2Proof.Machine
end

