-- ==== Sys2Proof/Laws/Config.lean ====
section
/-! SUPPORT. The parameters this machine runs with meet the spec's constraints on them. -/

namespace Sys2Proof

open Machine

/-- R202: the default transform is the identity at rotation 0 and injective at every rotation. -/
theorem defaultRotation_laws : RotationLaws defaultRotation := by
  refine ⟨fun x y => rfl, fun r x y x' y' h => ?_⟩
  unfold defaultRotation at h
  split at h <;> simp only [Prod.mk.injEq] at h <;> omega

theorem registerData_total : 68 + Config.registerData.total < 65536 := by
  unfold Config.registerData
  split
  · assumption
  · decide

/-- R7, R24, R79, R202: the constraints hold whatever the open parameters are. -/
theorem params_wf : Config.params.Wf where
  polls := Nat.le_add_left 1 _
  programs := registerData_total
  lutFull := by simp [Config.params]
  lutPart := by simp [Config.params]
  poll := Nat.succ_pos _
  rstLow := Nat.le_refl _
  rotation := defaultRotation_laws

end Sys2Proof
end

