-- ==== Sys2Proof/Laws/Pins.lean ====
section
/-! SUPPORT. The pins after a byte transfer (R127, R128): SCK back at 0, MOSI at the last bit, CS and DC back
at 1. -/

namespace Sys2Proof.Machine

/-- R127, R26: after a transfer SCK is idle and MOSI keeps the last bit shifted. -/
@[simp] theorem shiftByte_eq (b : Byte) (p : Pins) :
    shiftByte b p = { p with mosi := b.getLsbD 0, sck := false } := rfl

/-- R127: a transfer under its own chip-select assertion. -/
@[simp] theorem xferByte_eq (b : Byte) (p : Pins) :
    xferByte b p = { p with mosi := b.getLsbD 0, sck := false, cs := true } := rfl

/-- R126: the pins after a burst's Bytes, CS released; RST and DC are not touched. -/
theorem burstBytes_pins (bs : List Byte) (s : State) :
    ∃ m k, (burstBytes bs s).pins = { s.pins with mosi := m, sck := k, cs := true } ∧
      (s.pins.sck = false → k = false) := by
  induction bs generalizing s with
  | nil => exact ⟨s.pins.mosi, s.pins.sck, rfl, id⟩
  | cons b bs ih =>
    obtain ⟨m, k, h, hk⟩ := ih (emit (.dat b) { s with pins := shiftByte b s.pins, bidx := s.bidx + 1 })
    exact ⟨m, k, h, fun _ => hk rfl⟩

/-- R126: a burst changes pins, BIDX and the trace only, and appends one `Dat` per Byte. -/
theorem burstBytes_eq (bs : List Byte) (s : State) :
    burstBytes bs s = { s with
      pins := (burstBytes bs s).pins, bidx := 0, traceRev := (bs.map .dat).reverse ++ s.traceRev } := by
  induction bs generalizing s with
  | nil => simp [burstBytes]
  | cons b bs ih =>
    rw [burstBytes, ih]
    simp [emit]

end Sys2Proof.Machine
end

