-- ==== Sys2Proof/Laws/State.lean ====
section
/-! SUPPORT. The state's fields after each shared operation, one lemma per field, so that no later proof
unfolds a record update. -/

namespace Sys2Proof.Machine

variable (s : State)

/-! `emit` (R13) -/

@[simp] theorem emit_fb (e : Event) : (emit e s).fb = s.fb := rfl
@[simp] theorem emit_opc (e : Event) : (emit e s).opc = s.opc := rfl
@[simp] theorem emit_a0 (e : Event) : (emit e s).a0 = s.a0 := rfl
@[simp] theorem emit_a1 (e : Event) : (emit e s).a1 = s.a1 := rfl
@[simp] theorem emit_a2 (e : Event) : (emit e s).a2 = s.a2 := rfl
@[simp] theorem emit_a3 (e : Event) : (emit e s).a3 = s.a3 := rfl
@[simp] theorem emit_payload (e : Event) : (emit e s).payload = s.payload := rfl
@[simp] theorem emit_rot (e : Event) : (emit e s).rot = s.rot := rfl
@[simp] theorem emit_active (e : Event) : (emit e s).active = s.active := rfl
@[simp] theorem emit_upc (e : Event) : (emit e s).upc = s.upc := rfl
@[simp] theorem emit_bidx (e : Event) : (emit e s).bidx = s.bidx := rfl
@[simp] theorem emit_pollcnt (e : Event) : (emit e s).pollcnt = s.pollcnt := rfl
@[simp] theorem emit_pins (e : Event) : (emit e s).pins = s.pins := rfl
@[simp] theorem emit_fault (e : Event) : (emit e s).fault = s.fault := rfl
@[simp] theorem emit_stall (e : Event) : (emit e s).stall = s.stall := rfl
@[simp] theorem emit_ill (e : Event) : (emit e s).ill = s.ill := rfl
@[simp] theorem emit_rej (e : Event) : (emit e s).rej = s.rej := rfl
@[simp] theorem emit_cause (e : Event) : (emit e s).cause = s.cause := rfl
@[simp] theorem emit_fop (e : Event) : (emit e s).fop = s.fop := rfl
@[simp] theorem emit_fupc (e : Event) : (emit e s).fupc = s.fupc := rfl
@[simp] theorem emit_rdata (e : Event) : (emit e s).rdata = s.rdata := rfl
@[simp] theorem emit_roob (e : Event) : (emit e s).roob = s.roob := rfl
@[simp] theorem emit_emv (e : Event) : (emit e s).emv = s.emv := rfl
@[simp] theorem emit_em (e : Event) : (emit e s).em = s.em := rfl
@[simp] theorem emit_winv (e : Event) : (emit e s).winv = s.winv := rfl
@[simp] theorem emit_wxs (e : Event) : (emit e s).wxs = s.wxs := rfl
@[simp] theorem emit_wxe (e : Event) : (emit e s).wxe = s.wxe := rfl
@[simp] theorem emit_wys (e : Event) : (emit e s).wys = s.wys := rfl
@[simp] theorem emit_wye (e : Event) : (emit e s).wye = s.wye := rfl
@[simp] theorem emit_lutsel (e : Event) : (emit e s).lutsel = s.lutsel := rfl
@[simp] theorem emit_pwr (e : Event) : (emit e s).pwr = s.pwr := rfl
@[simp] theorem emit_traceRev (e : Event) : (emit e s).traceRev = e :: s.traceRev := rfl
@[simp] theorem emit_inbox (e : Event) : (emit e s).inbox = s.inbox := rfl
@[simp] theorem emit_busy (e : Event) : (emit e s).busy = s.busy := rfl
@[simp] theorem emit_draws (e : Event) : (emit e s).draws = s.draws := rfl

/-! `dropBusy` (R43) -/

@[simp] theorem dropBusy_fb : (dropBusy s).fb = s.fb := by unfold dropBusy; split <;> rfl
@[simp] theorem dropBusy_opc : (dropBusy s).opc = s.opc := by unfold dropBusy; split <;> rfl
@[simp] theorem dropBusy_a0 : (dropBusy s).a0 = s.a0 := by unfold dropBusy; split <;> rfl
@[simp] theorem dropBusy_a1 : (dropBusy s).a1 = s.a1 := by unfold dropBusy; split <;> rfl
@[simp] theorem dropBusy_a2 : (dropBusy s).a2 = s.a2 := by unfold dropBusy; split <;> rfl
@[simp] theorem dropBusy_a3 : (dropBusy s).a3 = s.a3 := by unfold dropBusy; split <;> rfl
@[simp] theorem dropBusy_payload : (dropBusy s).payload = s.payload := by unfold dropBusy; split <;> rfl
@[simp] theorem dropBusy_rot : (dropBusy s).rot = s.rot := by unfold dropBusy; split <;> rfl
@[simp] theorem dropBusy_active : (dropBusy s).active = s.active := by unfold dropBusy; split <;> rfl
@[simp] theorem dropBusy_upc : (dropBusy s).upc = s.upc := by unfold dropBusy; split <;> rfl
@[simp] theorem dropBusy_bidx : (dropBusy s).bidx = s.bidx := by unfold dropBusy; split <;> rfl
@[simp] theorem dropBusy_pollcnt : (dropBusy s).pollcnt = s.pollcnt := by unfold dropBusy; split <;> rfl
@[simp] theorem dropBusy_pins : (dropBusy s).pins = s.pins := by unfold dropBusy; split <;> rfl
@[simp] theorem dropBusy_fault : (dropBusy s).fault = s.fault := by unfold dropBusy; split <;> rfl
@[simp] theorem dropBusy_stall : (dropBusy s).stall = s.stall := by unfold dropBusy; split <;> rfl
@[simp] theorem dropBusy_ill : (dropBusy s).ill = s.ill := by unfold dropBusy; split <;> rfl
@[simp] theorem dropBusy_rej : (dropBusy s).rej = s.rej := by unfold dropBusy; split <;> rfl
@[simp] theorem dropBusy_cause : (dropBusy s).cause = s.cause := by unfold dropBusy; split <;> rfl
@[simp] theorem dropBusy_fop : (dropBusy s).fop = s.fop := by unfold dropBusy; split <;> rfl
@[simp] theorem dropBusy_fupc : (dropBusy s).fupc = s.fupc := by unfold dropBusy; split <;> rfl
@[simp] theorem dropBusy_rdata : (dropBusy s).rdata = s.rdata := by unfold dropBusy; split <;> rfl
@[simp] theorem dropBusy_roob : (dropBusy s).roob = s.roob := by unfold dropBusy; split <;> rfl
@[simp] theorem dropBusy_emv : (dropBusy s).emv = s.emv := by unfold dropBusy; split <;> rfl
@[simp] theorem dropBusy_em : (dropBusy s).em = s.em := by unfold dropBusy; split <;> rfl
@[simp] theorem dropBusy_winv : (dropBusy s).winv = s.winv := by unfold dropBusy; split <;> rfl
@[simp] theorem dropBusy_wxs : (dropBusy s).wxs = s.wxs := by unfold dropBusy; split <;> rfl
@[simp] theorem dropBusy_wxe : (dropBusy s).wxe = s.wxe := by unfold dropBusy; split <;> rfl
@[simp] theorem dropBusy_wys : (dropBusy s).wys = s.wys := by unfold dropBusy; split <;> rfl
@[simp] theorem dropBusy_wye : (dropBusy s).wye = s.wye := by unfold dropBusy; split <;> rfl
@[simp] theorem dropBusy_lutsel : (dropBusy s).lutsel = s.lutsel := by unfold dropBusy; split <;> rfl
@[simp] theorem dropBusy_pwr : (dropBusy s).pwr = s.pwr := by unfold dropBusy; split <;> rfl
@[simp] theorem dropBusy_traceRev : (dropBusy s).traceRev = s.traceRev := by unfold dropBusy; split <;> rfl
@[simp] theorem dropBusy_inbox : (dropBusy s).inbox = s.inbox := by unfold dropBusy; split <;> rfl

/-! `sampleBusy` (R129) -/

@[simp] theorem sampleBusy_fb : (sampleBusy s).fb = s.fb := by simp [sampleBusy]
@[simp] theorem sampleBusy_opc : (sampleBusy s).opc = s.opc := by simp [sampleBusy]
@[simp] theorem sampleBusy_a0 : (sampleBusy s).a0 = s.a0 := by simp [sampleBusy]
@[simp] theorem sampleBusy_a1 : (sampleBusy s).a1 = s.a1 := by simp [sampleBusy]
@[simp] theorem sampleBusy_a2 : (sampleBusy s).a2 = s.a2 := by simp [sampleBusy]
@[simp] theorem sampleBusy_a3 : (sampleBusy s).a3 = s.a3 := by simp [sampleBusy]
@[simp] theorem sampleBusy_payload : (sampleBusy s).payload = s.payload := by simp [sampleBusy]
@[simp] theorem sampleBusy_rot : (sampleBusy s).rot = s.rot := by simp [sampleBusy]
@[simp] theorem sampleBusy_active : (sampleBusy s).active = s.active := by simp [sampleBusy]
@[simp] theorem sampleBusy_upc : (sampleBusy s).upc = s.upc := by simp [sampleBusy]
@[simp] theorem sampleBusy_bidx : (sampleBusy s).bidx = s.bidx := by simp [sampleBusy]
@[simp] theorem sampleBusy_pollcnt : (sampleBusy s).pollcnt = s.pollcnt := by simp [sampleBusy]
@[simp] theorem sampleBusy_pins : (sampleBusy s).pins = s.pins := by simp [sampleBusy]
@[simp] theorem sampleBusy_fault : (sampleBusy s).fault = s.fault := by simp [sampleBusy]
@[simp] theorem sampleBusy_stall : (sampleBusy s).stall = s.stall := by simp [sampleBusy]
@[simp] theorem sampleBusy_ill : (sampleBusy s).ill = s.ill := by simp [sampleBusy]
@[simp] theorem sampleBusy_rej : (sampleBusy s).rej = s.rej := by simp [sampleBusy]
@[simp] theorem sampleBusy_cause : (sampleBusy s).cause = s.cause := by simp [sampleBusy]
@[simp] theorem sampleBusy_fop : (sampleBusy s).fop = s.fop := by simp [sampleBusy]
@[simp] theorem sampleBusy_fupc : (sampleBusy s).fupc = s.fupc := by simp [sampleBusy]
@[simp] theorem sampleBusy_rdata : (sampleBusy s).rdata = s.rdata := by simp [sampleBusy]
@[simp] theorem sampleBusy_roob : (sampleBusy s).roob = s.roob := by simp [sampleBusy]
@[simp] theorem sampleBusy_emv : (sampleBusy s).emv = s.emv := by simp [sampleBusy]
@[simp] theorem sampleBusy_em : (sampleBusy s).em = s.em := by simp [sampleBusy]
@[simp] theorem sampleBusy_winv : (sampleBusy s).winv = s.winv := by simp [sampleBusy]
@[simp] theorem sampleBusy_wxs : (sampleBusy s).wxs = s.wxs := by simp [sampleBusy]
@[simp] theorem sampleBusy_wxe : (sampleBusy s).wxe = s.wxe := by simp [sampleBusy]
@[simp] theorem sampleBusy_wys : (sampleBusy s).wys = s.wys := by simp [sampleBusy]
@[simp] theorem sampleBusy_wye : (sampleBusy s).wye = s.wye := by simp [sampleBusy]
@[simp] theorem sampleBusy_lutsel : (sampleBusy s).lutsel = s.lutsel := by simp [sampleBusy]
@[simp] theorem sampleBusy_pwr : (sampleBusy s).pwr = s.pwr := by simp [sampleBusy]
@[simp] theorem sampleBusy_traceRev : (sampleBusy s).traceRev = .poll (busyLevel s) :: s.traceRev := by simp [sampleBusy]
@[simp] theorem sampleBusy_inbox : (sampleBusy s).inbox = s.inbox := by simp [sampleBusy]
@[simp] theorem sampleBusy_busy : (sampleBusy s).busy = (dropBusy s).busy := by simp [sampleBusy]
@[simp] theorem sampleBusy_draws : (sampleBusy s).draws = (dropBusy s).draws := by simp [sampleBusy]

/-! `logStall` (R124) -/

@[simp] theorem logStall_fb (l : Bool) : (logStall l s).fb = s.fb := by cases l <;> rfl
@[simp] theorem logStall_opc (l : Bool) : (logStall l s).opc = s.opc := by cases l <;> rfl
@[simp] theorem logStall_a0 (l : Bool) : (logStall l s).a0 = s.a0 := by cases l <;> rfl
@[simp] theorem logStall_a1 (l : Bool) : (logStall l s).a1 = s.a1 := by cases l <;> rfl
@[simp] theorem logStall_a2 (l : Bool) : (logStall l s).a2 = s.a2 := by cases l <;> rfl
@[simp] theorem logStall_a3 (l : Bool) : (logStall l s).a3 = s.a3 := by cases l <;> rfl
@[simp] theorem logStall_payload (l : Bool) : (logStall l s).payload = s.payload := by cases l <;> rfl
@[simp] theorem logStall_rot (l : Bool) : (logStall l s).rot = s.rot := by cases l <;> rfl
@[simp] theorem logStall_active (l : Bool) : (logStall l s).active = s.active := by cases l <;> rfl
@[simp] theorem logStall_upc (l : Bool) : (logStall l s).upc = s.upc := by cases l <;> rfl
@[simp] theorem logStall_bidx (l : Bool) : (logStall l s).bidx = s.bidx := by cases l <;> rfl
@[simp] theorem logStall_pollcnt (l : Bool) : (logStall l s).pollcnt = s.pollcnt := by cases l <;> rfl
@[simp] theorem logStall_pins (l : Bool) : (logStall l s).pins = s.pins := by cases l <;> rfl
@[simp] theorem logStall_fault (l : Bool) : (logStall l s).fault = s.fault := by cases l <;> rfl
@[simp] theorem logStall_stall (l : Bool) : (logStall l s).stall = (l || s.stall) := by cases l <;> rfl
@[simp] theorem logStall_ill (l : Bool) : (logStall l s).ill = s.ill := by cases l <;> rfl
@[simp] theorem logStall_rej (l : Bool) : (logStall l s).rej = s.rej := by cases l <;> rfl
@[simp] theorem logStall_cause (l : Bool) : (logStall l s).cause = s.cause := by cases l <;> rfl
@[simp] theorem logStall_fop (l : Bool) : (logStall l s).fop = s.fop := by cases l <;> rfl
@[simp] theorem logStall_fupc (l : Bool) : (logStall l s).fupc = s.fupc := by cases l <;> rfl
@[simp] theorem logStall_rdata (l : Bool) : (logStall l s).rdata = s.rdata := by cases l <;> rfl
@[simp] theorem logStall_roob (l : Bool) : (logStall l s).roob = s.roob := by cases l <;> rfl
@[simp] theorem logStall_emv (l : Bool) : (logStall l s).emv = s.emv := by cases l <;> rfl
@[simp] theorem logStall_em (l : Bool) : (logStall l s).em = s.em := by cases l <;> rfl
@[simp] theorem logStall_winv (l : Bool) : (logStall l s).winv = s.winv := by cases l <;> rfl
@[simp] theorem logStall_wxs (l : Bool) : (logStall l s).wxs = s.wxs := by cases l <;> rfl
@[simp] theorem logStall_wxe (l : Bool) : (logStall l s).wxe = s.wxe := by cases l <;> rfl
@[simp] theorem logStall_wys (l : Bool) : (logStall l s).wys = s.wys := by cases l <;> rfl
@[simp] theorem logStall_wye (l : Bool) : (logStall l s).wye = s.wye := by cases l <;> rfl
@[simp] theorem logStall_lutsel (l : Bool) : (logStall l s).lutsel = s.lutsel := by cases l <;> rfl
@[simp] theorem logStall_pwr (l : Bool) : (logStall l s).pwr = s.pwr := by cases l <;> rfl
@[simp] theorem logStall_traceRev (l : Bool) : (logStall l s).traceRev = s.traceRev := by cases l <;> rfl
@[simp] theorem logStall_inbox (l : Bool) : (logStall l s).inbox = s.inbox := by cases l <;> rfl
@[simp] theorem logStall_busy (l : Bool) : (logStall l s).busy = s.busy := by cases l <;> rfl
@[simp] theorem logStall_draws (l : Bool) : (logStall l s).draws = s.draws := by cases l <;> rfl

/-! `rejectIllegal` (R102) -/

@[simp] theorem rejectIllegal_fb : (rejectIllegal s).fb = s.fb := rfl
@[simp] theorem rejectIllegal_opc : (rejectIllegal s).opc = s.opc := rfl
@[simp] theorem rejectIllegal_a0 : (rejectIllegal s).a0 = s.a0 := rfl
@[simp] theorem rejectIllegal_a1 : (rejectIllegal s).a1 = s.a1 := rfl
@[simp] theorem rejectIllegal_a2 : (rejectIllegal s).a2 = s.a2 := rfl
@[simp] theorem rejectIllegal_a3 : (rejectIllegal s).a3 = s.a3 := rfl
@[simp] theorem rejectIllegal_payload : (rejectIllegal s).payload = s.payload := rfl
@[simp] theorem rejectIllegal_rot : (rejectIllegal s).rot = s.rot := rfl
@[simp] theorem rejectIllegal_active : (rejectIllegal s).active = s.active := rfl
@[simp] theorem rejectIllegal_upc : (rejectIllegal s).upc = s.upc := rfl
@[simp] theorem rejectIllegal_bidx : (rejectIllegal s).bidx = s.bidx := rfl
@[simp] theorem rejectIllegal_pollcnt : (rejectIllegal s).pollcnt = s.pollcnt := rfl
@[simp] theorem rejectIllegal_pins : (rejectIllegal s).pins = s.pins := rfl
@[simp] theorem rejectIllegal_fault : (rejectIllegal s).fault = s.fault := rfl
@[simp] theorem rejectIllegal_stall : (rejectIllegal s).stall = s.stall := rfl
@[simp] theorem rejectIllegal_ill : (rejectIllegal s).ill = true := rfl
@[simp] theorem rejectIllegal_rej : (rejectIllegal s).rej = s.rej := rfl
@[simp] theorem rejectIllegal_cause : (rejectIllegal s).cause = s.cause := rfl
@[simp] theorem rejectIllegal_fop : (rejectIllegal s).fop = s.fop := rfl
@[simp] theorem rejectIllegal_fupc : (rejectIllegal s).fupc = s.fupc := rfl
@[simp] theorem rejectIllegal_rdata : (rejectIllegal s).rdata = s.rdata := rfl
@[simp] theorem rejectIllegal_roob : (rejectIllegal s).roob = s.roob := rfl
@[simp] theorem rejectIllegal_emv : (rejectIllegal s).emv = s.emv := rfl
@[simp] theorem rejectIllegal_em : (rejectIllegal s).em = s.em := rfl
@[simp] theorem rejectIllegal_winv : (rejectIllegal s).winv = s.winv := rfl
@[simp] theorem rejectIllegal_wxs : (rejectIllegal s).wxs = s.wxs := rfl
@[simp] theorem rejectIllegal_wxe : (rejectIllegal s).wxe = s.wxe := rfl
@[simp] theorem rejectIllegal_wys : (rejectIllegal s).wys = s.wys := rfl
@[simp] theorem rejectIllegal_wye : (rejectIllegal s).wye = s.wye := rfl
@[simp] theorem rejectIllegal_lutsel : (rejectIllegal s).lutsel = s.lutsel := rfl
@[simp] theorem rejectIllegal_pwr : (rejectIllegal s).pwr = s.pwr := rfl
@[simp] theorem rejectIllegal_traceRev : (rejectIllegal s).traceRev = s.traceRev := rfl
@[simp] theorem rejectIllegal_inbox : (rejectIllegal s).inbox = s.inbox := rfl
@[simp] theorem rejectIllegal_busy : (rejectIllegal s).busy = s.busy := rfl
@[simp] theorem rejectIllegal_draws : (rejectIllegal s).draws = s.draws := rfl

/-! `refuseLink` (R300) -/

@[simp] theorem refuseLink_fb : (refuseLink s).fb = s.fb := rfl
@[simp] theorem refuseLink_opc : (refuseLink s).opc = s.opc := rfl
@[simp] theorem refuseLink_a0 : (refuseLink s).a0 = s.a0 := rfl
@[simp] theorem refuseLink_a1 : (refuseLink s).a1 = s.a1 := rfl
@[simp] theorem refuseLink_a2 : (refuseLink s).a2 = s.a2 := rfl
@[simp] theorem refuseLink_a3 : (refuseLink s).a3 = s.a3 := rfl
@[simp] theorem refuseLink_payload : (refuseLink s).payload = s.payload := rfl
@[simp] theorem refuseLink_rot : (refuseLink s).rot = s.rot := rfl
@[simp] theorem refuseLink_active : (refuseLink s).active = s.active := rfl
@[simp] theorem refuseLink_upc : (refuseLink s).upc = s.upc := rfl
@[simp] theorem refuseLink_bidx : (refuseLink s).bidx = s.bidx := rfl
@[simp] theorem refuseLink_pollcnt : (refuseLink s).pollcnt = s.pollcnt := rfl
@[simp] theorem refuseLink_pins : (refuseLink s).pins = s.pins := rfl
@[simp] theorem refuseLink_fault : (refuseLink s).fault = s.fault := rfl
@[simp] theorem refuseLink_stall : (refuseLink s).stall = s.stall := rfl
@[simp] theorem refuseLink_ill : (refuseLink s).ill = s.ill := rfl
@[simp] theorem refuseLink_rej : (refuseLink s).rej = true := rfl
@[simp] theorem refuseLink_cause : (refuseLink s).cause = s.cause := rfl
@[simp] theorem refuseLink_fop : (refuseLink s).fop = s.fop := rfl
@[simp] theorem refuseLink_fupc : (refuseLink s).fupc = s.fupc := rfl
@[simp] theorem refuseLink_rdata : (refuseLink s).rdata = s.rdata := rfl
@[simp] theorem refuseLink_roob : (refuseLink s).roob = s.roob := rfl
@[simp] theorem refuseLink_emv : (refuseLink s).emv = s.emv := rfl
@[simp] theorem refuseLink_em : (refuseLink s).em = s.em := rfl
@[simp] theorem refuseLink_winv : (refuseLink s).winv = s.winv := rfl
@[simp] theorem refuseLink_wxs : (refuseLink s).wxs = s.wxs := rfl
@[simp] theorem refuseLink_wxe : (refuseLink s).wxe = s.wxe := rfl
@[simp] theorem refuseLink_wys : (refuseLink s).wys = s.wys := rfl
@[simp] theorem refuseLink_wye : (refuseLink s).wye = s.wye := rfl
@[simp] theorem refuseLink_lutsel : (refuseLink s).lutsel = s.lutsel := rfl
@[simp] theorem refuseLink_pwr : (refuseLink s).pwr = s.pwr := rfl
@[simp] theorem refuseLink_traceRev : (refuseLink s).traceRev = s.traceRev := rfl
@[simp] theorem refuseLink_inbox : (refuseLink s).inbox = s.inbox := rfl
@[simp] theorem refuseLink_busy : (refuseLink s).busy = s.busy := rfl
@[simp] theorem refuseLink_draws : (refuseLink s).draws = s.draws := rfl

/-! `faultEntry` (R296) -/

@[simp] theorem faultEntry_fb : (faultEntry s).fb = s.fb := rfl
@[simp] theorem faultEntry_opc : (faultEntry s).opc = s.opc := rfl
@[simp] theorem faultEntry_a0 : (faultEntry s).a0 = s.a0 := rfl
@[simp] theorem faultEntry_a1 : (faultEntry s).a1 = s.a1 := rfl
@[simp] theorem faultEntry_a2 : (faultEntry s).a2 = s.a2 := rfl
@[simp] theorem faultEntry_a3 : (faultEntry s).a3 = s.a3 := rfl
@[simp] theorem faultEntry_payload : (faultEntry s).payload = s.payload := rfl
@[simp] theorem faultEntry_rot : (faultEntry s).rot = s.rot := rfl
@[simp] theorem faultEntry_active : (faultEntry s).active = false := rfl
@[simp] theorem faultEntry_upc : (faultEntry s).upc = 0 := rfl
@[simp] theorem faultEntry_bidx : (faultEntry s).bidx = 0 := rfl
@[simp] theorem faultEntry_pollcnt : (faultEntry s).pollcnt = s.pollcnt := rfl
@[simp] theorem faultEntry_pins : (faultEntry s).pins = { s.pins with cs := true, dc := true, sck := false } := rfl
@[simp] theorem faultEntry_fault : (faultEntry s).fault = true := rfl
@[simp] theorem faultEntry_stall : (faultEntry s).stall = s.stall := rfl
@[simp] theorem faultEntry_ill : (faultEntry s).ill = s.ill := rfl
@[simp] theorem faultEntry_rej : (faultEntry s).rej = s.rej := rfl
@[simp] theorem faultEntry_cause : (faultEntry s).cause = 1 := rfl
@[simp] theorem faultEntry_fop : (faultEntry s).fop = s.opc := rfl
@[simp] theorem faultEntry_fupc : (faultEntry s).fupc = s.upc := rfl
@[simp] theorem faultEntry_rdata : (faultEntry s).rdata = s.rdata := rfl
@[simp] theorem faultEntry_roob : (faultEntry s).roob = s.roob := rfl
@[simp] theorem faultEntry_emv : (faultEntry s).emv = s.emv := rfl
@[simp] theorem faultEntry_em : (faultEntry s).em = s.em := rfl
@[simp] theorem faultEntry_winv : (faultEntry s).winv = s.winv := rfl
@[simp] theorem faultEntry_wxs : (faultEntry s).wxs = s.wxs := rfl
@[simp] theorem faultEntry_wxe : (faultEntry s).wxe = s.wxe := rfl
@[simp] theorem faultEntry_wys : (faultEntry s).wys = s.wys := rfl
@[simp] theorem faultEntry_wye : (faultEntry s).wye = s.wye := rfl
@[simp] theorem faultEntry_lutsel : (faultEntry s).lutsel = s.lutsel := rfl
@[simp] theorem faultEntry_pwr : (faultEntry s).pwr = s.pwr := rfl
@[simp] theorem faultEntry_traceRev : (faultEntry s).traceRev = s.traceRev := rfl
@[simp] theorem faultEntry_inbox : (faultEntry s).inbox = s.inbox := rfl
@[simp] theorem faultEntry_busy : (faultEntry s).busy = s.busy := rfl
@[simp] theorem faultEntry_draws : (faultEntry s).draws = s.draws := rfl

/-! `clearFault` (R220) -/

@[simp] theorem clearFault_fb : (clearFault s).fb = s.fb := rfl
@[simp] theorem clearFault_opc : (clearFault s).opc = s.opc := rfl
@[simp] theorem clearFault_a0 : (clearFault s).a0 = s.a0 := rfl
@[simp] theorem clearFault_a1 : (clearFault s).a1 = s.a1 := rfl
@[simp] theorem clearFault_a2 : (clearFault s).a2 = s.a2 := rfl
@[simp] theorem clearFault_a3 : (clearFault s).a3 = s.a3 := rfl
@[simp] theorem clearFault_payload : (clearFault s).payload = s.payload := rfl
@[simp] theorem clearFault_rot : (clearFault s).rot = s.rot := rfl
@[simp] theorem clearFault_active : (clearFault s).active = s.active := rfl
@[simp] theorem clearFault_upc : (clearFault s).upc = s.upc := rfl
@[simp] theorem clearFault_bidx : (clearFault s).bidx = s.bidx := rfl
@[simp] theorem clearFault_pollcnt : (clearFault s).pollcnt = s.pollcnt := rfl
@[simp] theorem clearFault_pins : (clearFault s).pins = s.pins := rfl
@[simp] theorem clearFault_fault : (clearFault s).fault = false := rfl
@[simp] theorem clearFault_stall : (clearFault s).stall = false := rfl
@[simp] theorem clearFault_ill : (clearFault s).ill = false := rfl
@[simp] theorem clearFault_rej : (clearFault s).rej = false := rfl
@[simp] theorem clearFault_cause : (clearFault s).cause = 0 := rfl
@[simp] theorem clearFault_fop : (clearFault s).fop = 0 := rfl
@[simp] theorem clearFault_fupc : (clearFault s).fupc = 0 := rfl
@[simp] theorem clearFault_rdata : (clearFault s).rdata = s.rdata := rfl
@[simp] theorem clearFault_roob : (clearFault s).roob = s.roob := rfl
@[simp] theorem clearFault_emv : (clearFault s).emv = s.emv := rfl
@[simp] theorem clearFault_em : (clearFault s).em = s.em := rfl
@[simp] theorem clearFault_winv : (clearFault s).winv = s.winv := rfl
@[simp] theorem clearFault_wxs : (clearFault s).wxs = s.wxs := rfl
@[simp] theorem clearFault_wxe : (clearFault s).wxe = s.wxe := rfl
@[simp] theorem clearFault_wys : (clearFault s).wys = s.wys := rfl
@[simp] theorem clearFault_wye : (clearFault s).wye = s.wye := rfl
@[simp] theorem clearFault_lutsel : (clearFault s).lutsel = s.lutsel := rfl
@[simp] theorem clearFault_pwr : (clearFault s).pwr = s.pwr := rfl
@[simp] theorem clearFault_traceRev : (clearFault s).traceRev = s.traceRev := rfl
@[simp] theorem clearFault_inbox : (clearFault s).inbox = s.inbox := rfl
@[simp] theorem clearFault_busy : (clearFault s).busy = s.busy := rfl
@[simp] theorem clearFault_draws : (clearFault s).draws = s.draws := rfl

/-! `invalidateShadows` (R122) -/

@[simp] theorem invalidateShadows_fb : (invalidateShadows s).fb = s.fb := rfl
@[simp] theorem invalidateShadows_opc : (invalidateShadows s).opc = s.opc := rfl
@[simp] theorem invalidateShadows_a0 : (invalidateShadows s).a0 = s.a0 := rfl
@[simp] theorem invalidateShadows_a1 : (invalidateShadows s).a1 = s.a1 := rfl
@[simp] theorem invalidateShadows_a2 : (invalidateShadows s).a2 = s.a2 := rfl
@[simp] theorem invalidateShadows_a3 : (invalidateShadows s).a3 = s.a3 := rfl
@[simp] theorem invalidateShadows_payload : (invalidateShadows s).payload = s.payload := rfl
@[simp] theorem invalidateShadows_rot : (invalidateShadows s).rot = s.rot := rfl
@[simp] theorem invalidateShadows_active : (invalidateShadows s).active = s.active := rfl
@[simp] theorem invalidateShadows_upc : (invalidateShadows s).upc = s.upc := rfl
@[simp] theorem invalidateShadows_bidx : (invalidateShadows s).bidx = s.bidx := rfl
@[simp] theorem invalidateShadows_pollcnt : (invalidateShadows s).pollcnt = s.pollcnt := rfl
@[simp] theorem invalidateShadows_pins : (invalidateShadows s).pins = s.pins := rfl
@[simp] theorem invalidateShadows_fault : (invalidateShadows s).fault = s.fault := rfl
@[simp] theorem invalidateShadows_stall : (invalidateShadows s).stall = s.stall := rfl
@[simp] theorem invalidateShadows_ill : (invalidateShadows s).ill = s.ill := rfl
@[simp] theorem invalidateShadows_rej : (invalidateShadows s).rej = s.rej := rfl
@[simp] theorem invalidateShadows_cause : (invalidateShadows s).cause = s.cause := rfl
@[simp] theorem invalidateShadows_fop : (invalidateShadows s).fop = s.fop := rfl
@[simp] theorem invalidateShadows_fupc : (invalidateShadows s).fupc = s.fupc := rfl
@[simp] theorem invalidateShadows_rdata : (invalidateShadows s).rdata = s.rdata := rfl
@[simp] theorem invalidateShadows_roob : (invalidateShadows s).roob = s.roob := rfl
@[simp] theorem invalidateShadows_emv : (invalidateShadows s).emv = false := rfl
@[simp] theorem invalidateShadows_em : (invalidateShadows s).em = s.em := rfl
@[simp] theorem invalidateShadows_winv : (invalidateShadows s).winv = false := rfl
@[simp] theorem invalidateShadows_wxs : (invalidateShadows s).wxs = s.wxs := rfl
@[simp] theorem invalidateShadows_wxe : (invalidateShadows s).wxe = s.wxe := rfl
@[simp] theorem invalidateShadows_wys : (invalidateShadows s).wys = s.wys := rfl
@[simp] theorem invalidateShadows_wye : (invalidateShadows s).wye = s.wye := rfl
@[simp] theorem invalidateShadows_lutsel : (invalidateShadows s).lutsel = 0 := rfl
@[simp] theorem invalidateShadows_pwr : (invalidateShadows s).pwr = false := rfl
@[simp] theorem invalidateShadows_traceRev : (invalidateShadows s).traceRev = s.traceRev := rfl
@[simp] theorem invalidateShadows_inbox : (invalidateShadows s).inbox = s.inbox := rfl
@[simp] theorem invalidateShadows_busy : (invalidateShadows s).busy = s.busy := rfl
@[simp] theorem invalidateShadows_draws : (invalidateShadows s).draws = s.draws := rfl

/-! `writeShadow` (R130) -/

@[simp] theorem writeShadow_fb (a : Shadow) : (writeShadow a s).fb = s.fb := by cases a <;> rfl
@[simp] theorem writeShadow_opc (a : Shadow) : (writeShadow a s).opc = s.opc := by cases a <;> rfl
@[simp] theorem writeShadow_a0 (a : Shadow) : (writeShadow a s).a0 = s.a0 := by cases a <;> rfl
@[simp] theorem writeShadow_a1 (a : Shadow) : (writeShadow a s).a1 = s.a1 := by cases a <;> rfl
@[simp] theorem writeShadow_a2 (a : Shadow) : (writeShadow a s).a2 = s.a2 := by cases a <;> rfl
@[simp] theorem writeShadow_a3 (a : Shadow) : (writeShadow a s).a3 = s.a3 := by cases a <;> rfl
@[simp] theorem writeShadow_payload (a : Shadow) : (writeShadow a s).payload = s.payload := by cases a <;> rfl
@[simp] theorem writeShadow_rot (a : Shadow) : (writeShadow a s).rot = s.rot := by cases a <;> rfl
@[simp] theorem writeShadow_active (a : Shadow) : (writeShadow a s).active = s.active := by cases a <;> rfl
@[simp] theorem writeShadow_upc (a : Shadow) : (writeShadow a s).upc = s.upc := by cases a <;> rfl
@[simp] theorem writeShadow_bidx (a : Shadow) : (writeShadow a s).bidx = s.bidx := by cases a <;> rfl
@[simp] theorem writeShadow_pollcnt (a : Shadow) : (writeShadow a s).pollcnt = s.pollcnt := by cases a <;> rfl
@[simp] theorem writeShadow_pins (a : Shadow) : (writeShadow a s).pins = s.pins := by cases a <;> rfl
@[simp] theorem writeShadow_fault (a : Shadow) : (writeShadow a s).fault = s.fault := by cases a <;> rfl
@[simp] theorem writeShadow_stall (a : Shadow) : (writeShadow a s).stall = s.stall := by cases a <;> rfl
@[simp] theorem writeShadow_ill (a : Shadow) : (writeShadow a s).ill = s.ill := by cases a <;> rfl
@[simp] theorem writeShadow_rej (a : Shadow) : (writeShadow a s).rej = s.rej := by cases a <;> rfl
@[simp] theorem writeShadow_cause (a : Shadow) : (writeShadow a s).cause = s.cause := by cases a <;> rfl
@[simp] theorem writeShadow_fop (a : Shadow) : (writeShadow a s).fop = s.fop := by cases a <;> rfl
@[simp] theorem writeShadow_fupc (a : Shadow) : (writeShadow a s).fupc = s.fupc := by cases a <;> rfl
@[simp] theorem writeShadow_rdata (a : Shadow) : (writeShadow a s).rdata = s.rdata := by cases a <;> rfl
@[simp] theorem writeShadow_roob (a : Shadow) : (writeShadow a s).roob = s.roob := by cases a <;> rfl
@[simp] theorem writeShadow_traceRev (a : Shadow) : (writeShadow a s).traceRev = s.traceRev := by cases a <;> rfl
@[simp] theorem writeShadow_inbox (a : Shadow) : (writeShadow a s).inbox = s.inbox := by cases a <;> rfl
@[simp] theorem writeShadow_busy (a : Shadow) : (writeShadow a s).busy = s.busy := by cases a <;> rfl
@[simp] theorem writeShadow_draws (a : Shadow) : (writeShadow a s).draws = s.draws := by cases a <;> rfl

/-! `rstUop` (R122) -/

@[simp] theorem rstUop_fb (v : Bool) : (rstUop v s).fb = s.fb := by cases v <;> rfl
@[simp] theorem rstUop_opc (v : Bool) : (rstUop v s).opc = s.opc := by cases v <;> rfl
@[simp] theorem rstUop_a0 (v : Bool) : (rstUop v s).a0 = s.a0 := by cases v <;> rfl
@[simp] theorem rstUop_a1 (v : Bool) : (rstUop v s).a1 = s.a1 := by cases v <;> rfl
@[simp] theorem rstUop_a2 (v : Bool) : (rstUop v s).a2 = s.a2 := by cases v <;> rfl
@[simp] theorem rstUop_a3 (v : Bool) : (rstUop v s).a3 = s.a3 := by cases v <;> rfl
@[simp] theorem rstUop_payload (v : Bool) : (rstUop v s).payload = s.payload := by cases v <;> rfl
@[simp] theorem rstUop_rot (v : Bool) : (rstUop v s).rot = s.rot := by cases v <;> rfl
@[simp] theorem rstUop_active (v : Bool) : (rstUop v s).active = s.active := by cases v <;> rfl
@[simp] theorem rstUop_upc (v : Bool) : (rstUop v s).upc = s.upc := by cases v <;> rfl
@[simp] theorem rstUop_bidx (v : Bool) : (rstUop v s).bidx = s.bidx := by cases v <;> rfl
@[simp] theorem rstUop_pollcnt (v : Bool) : (rstUop v s).pollcnt = s.pollcnt := by cases v <;> rfl
@[simp] theorem rstUop_pins (v : Bool) : (rstUop v s).pins = { s.pins with rst := v } := by cases v <;> rfl
@[simp] theorem rstUop_fault (v : Bool) : (rstUop v s).fault = s.fault := by cases v <;> rfl
@[simp] theorem rstUop_stall (v : Bool) : (rstUop v s).stall = s.stall := by cases v <;> rfl
@[simp] theorem rstUop_ill (v : Bool) : (rstUop v s).ill = s.ill := by cases v <;> rfl
@[simp] theorem rstUop_rej (v : Bool) : (rstUop v s).rej = s.rej := by cases v <;> rfl
@[simp] theorem rstUop_cause (v : Bool) : (rstUop v s).cause = s.cause := by cases v <;> rfl
@[simp] theorem rstUop_fop (v : Bool) : (rstUop v s).fop = s.fop := by cases v <;> rfl
@[simp] theorem rstUop_fupc (v : Bool) : (rstUop v s).fupc = s.fupc := by cases v <;> rfl
@[simp] theorem rstUop_rdata (v : Bool) : (rstUop v s).rdata = s.rdata := by cases v <;> rfl
@[simp] theorem rstUop_roob (v : Bool) : (rstUop v s).roob = s.roob := by cases v <;> rfl
@[simp] theorem rstUop_emv (v : Bool) : (rstUop v s).emv = (v && s.emv) := by cases v <;> rfl
@[simp] theorem rstUop_em (v : Bool) : (rstUop v s).em = s.em := by cases v <;> rfl
@[simp] theorem rstUop_winv (v : Bool) : (rstUop v s).winv = (v && s.winv) := by cases v <;> rfl
@[simp] theorem rstUop_wxs (v : Bool) : (rstUop v s).wxs = s.wxs := by cases v <;> rfl
@[simp] theorem rstUop_wxe (v : Bool) : (rstUop v s).wxe = s.wxe := by cases v <;> rfl
@[simp] theorem rstUop_wys (v : Bool) : (rstUop v s).wys = s.wys := by cases v <;> rfl
@[simp] theorem rstUop_wye (v : Bool) : (rstUop v s).wye = s.wye := by cases v <;> rfl
@[simp] theorem rstUop_pwr (v : Bool) : (rstUop v s).pwr = (v && s.pwr) := by cases v <;> rfl
@[simp] theorem rstUop_traceRev (v : Bool) : (rstUop v s).traceRev = .rst v :: s.traceRev := by cases v <;> rfl
@[simp] theorem rstUop_inbox (v : Bool) : (rstUop v s).inbox = s.inbox := by cases v <;> rfl
@[simp] theorem rstUop_busy (v : Bool) : (rstUop v s).busy = s.busy := by cases v <;> rfl
@[simp] theorem rstUop_draws (v : Bool) : (rstUop v s).draws = s.draws := by cases v <;> rfl

/-! `advance` (R24) -/

@[simp] theorem advance_fb : (advance s).fb = s.fb := rfl
@[simp] theorem advance_opc : (advance s).opc = s.opc := rfl
@[simp] theorem advance_a0 : (advance s).a0 = s.a0 := rfl
@[simp] theorem advance_a1 : (advance s).a1 = s.a1 := rfl
@[simp] theorem advance_a2 : (advance s).a2 = s.a2 := rfl
@[simp] theorem advance_a3 : (advance s).a3 = s.a3 := rfl
@[simp] theorem advance_payload : (advance s).payload = s.payload := rfl
@[simp] theorem advance_rot : (advance s).rot = s.rot := rfl
@[simp] theorem advance_active : (advance s).active = s.active := rfl
@[simp] theorem advance_upc : (advance s).upc = s.upc + 1 := rfl
@[simp] theorem advance_bidx : (advance s).bidx = s.bidx := rfl
@[simp] theorem advance_pollcnt : (advance s).pollcnt = s.pollcnt := rfl
@[simp] theorem advance_pins : (advance s).pins = s.pins := rfl
@[simp] theorem advance_fault : (advance s).fault = s.fault := rfl
@[simp] theorem advance_stall : (advance s).stall = s.stall := rfl
@[simp] theorem advance_ill : (advance s).ill = s.ill := rfl
@[simp] theorem advance_rej : (advance s).rej = s.rej := rfl
@[simp] theorem advance_cause : (advance s).cause = s.cause := rfl
@[simp] theorem advance_fop : (advance s).fop = s.fop := rfl
@[simp] theorem advance_fupc : (advance s).fupc = s.fupc := rfl
@[simp] theorem advance_rdata : (advance s).rdata = s.rdata := rfl
@[simp] theorem advance_roob : (advance s).roob = s.roob := rfl
@[simp] theorem advance_emv : (advance s).emv = s.emv := rfl
@[simp] theorem advance_em : (advance s).em = s.em := rfl
@[simp] theorem advance_winv : (advance s).winv = s.winv := rfl
@[simp] theorem advance_wxs : (advance s).wxs = s.wxs := rfl
@[simp] theorem advance_wxe : (advance s).wxe = s.wxe := rfl
@[simp] theorem advance_wys : (advance s).wys = s.wys := rfl
@[simp] theorem advance_wye : (advance s).wye = s.wye := rfl
@[simp] theorem advance_lutsel : (advance s).lutsel = s.lutsel := rfl
@[simp] theorem advance_pwr : (advance s).pwr = s.pwr := rfl
@[simp] theorem advance_traceRev : (advance s).traceRev = s.traceRev := rfl
@[simp] theorem advance_inbox : (advance s).inbox = s.inbox := rfl
@[simp] theorem advance_busy : (advance s).busy = s.busy := rfl
@[simp] theorem advance_draws : (advance s).draws = s.draws := rfl

/-! `startProgram` (R121) -/

@[simp] theorem startProgram_fb : (startProgram s).fb = s.fb := rfl
@[simp] theorem startProgram_opc : (startProgram s).opc = s.opc := rfl
@[simp] theorem startProgram_a0 : (startProgram s).a0 = s.a0 := rfl
@[simp] theorem startProgram_a1 : (startProgram s).a1 = s.a1 := rfl
@[simp] theorem startProgram_a2 : (startProgram s).a2 = s.a2 := rfl
@[simp] theorem startProgram_a3 : (startProgram s).a3 = s.a3 := rfl
@[simp] theorem startProgram_payload : (startProgram s).payload = s.payload := rfl
@[simp] theorem startProgram_rot : (startProgram s).rot = s.rot := rfl
@[simp] theorem startProgram_active : (startProgram s).active = true := rfl
@[simp] theorem startProgram_upc : (startProgram s).upc = 0 := rfl
@[simp] theorem startProgram_bidx : (startProgram s).bidx = s.bidx := rfl
@[simp] theorem startProgram_pollcnt : (startProgram s).pollcnt = s.pollcnt := rfl
@[simp] theorem startProgram_pins : (startProgram s).pins = s.pins := rfl
@[simp] theorem startProgram_fault : (startProgram s).fault = s.fault := rfl
@[simp] theorem startProgram_stall : (startProgram s).stall = s.stall := rfl
@[simp] theorem startProgram_ill : (startProgram s).ill = s.ill := rfl
@[simp] theorem startProgram_rej : (startProgram s).rej = s.rej := rfl
@[simp] theorem startProgram_cause : (startProgram s).cause = s.cause := rfl
@[simp] theorem startProgram_fop : (startProgram s).fop = s.fop := rfl
@[simp] theorem startProgram_fupc : (startProgram s).fupc = s.fupc := rfl
@[simp] theorem startProgram_rdata : (startProgram s).rdata = s.rdata := rfl
@[simp] theorem startProgram_roob : (startProgram s).roob = s.roob := rfl
@[simp] theorem startProgram_emv : (startProgram s).emv = s.emv := rfl
@[simp] theorem startProgram_em : (startProgram s).em = s.em := rfl
@[simp] theorem startProgram_winv : (startProgram s).winv = s.winv := rfl
@[simp] theorem startProgram_wxs : (startProgram s).wxs = s.wxs := rfl
@[simp] theorem startProgram_wxe : (startProgram s).wxe = s.wxe := rfl
@[simp] theorem startProgram_wys : (startProgram s).wys = s.wys := rfl
@[simp] theorem startProgram_wye : (startProgram s).wye = s.wye := rfl
@[simp] theorem startProgram_lutsel : (startProgram s).lutsel = s.lutsel := rfl
@[simp] theorem startProgram_pwr : (startProgram s).pwr = s.pwr := rfl
@[simp] theorem startProgram_traceRev : (startProgram s).traceRev = s.traceRev := rfl
@[simp] theorem startProgram_inbox : (startProgram s).inbox = s.inbox := rfl
@[simp] theorem startProgram_busy : (startProgram s).busy = s.busy := rfl
@[simp] theorem startProgram_draws : (startProgram s).draws = s.draws := rfl

/-! `finishProgram` (R121) -/

@[simp] theorem finishProgram_fb : (finishProgram s).fb = s.fb := rfl
@[simp] theorem finishProgram_opc : (finishProgram s).opc = s.opc := rfl
@[simp] theorem finishProgram_a0 : (finishProgram s).a0 = s.a0 := rfl
@[simp] theorem finishProgram_a1 : (finishProgram s).a1 = s.a1 := rfl
@[simp] theorem finishProgram_a2 : (finishProgram s).a2 = s.a2 := rfl
@[simp] theorem finishProgram_a3 : (finishProgram s).a3 = s.a3 := rfl
@[simp] theorem finishProgram_payload : (finishProgram s).payload = s.payload := rfl
@[simp] theorem finishProgram_rot : (finishProgram s).rot = s.rot := rfl
@[simp] theorem finishProgram_active : (finishProgram s).active = false := rfl
@[simp] theorem finishProgram_upc : (finishProgram s).upc = 0 := rfl
@[simp] theorem finishProgram_bidx : (finishProgram s).bidx = s.bidx := rfl
@[simp] theorem finishProgram_pollcnt : (finishProgram s).pollcnt = s.pollcnt := rfl
@[simp] theorem finishProgram_pins : (finishProgram s).pins = s.pins := rfl
@[simp] theorem finishProgram_fault : (finishProgram s).fault = s.fault := rfl
@[simp] theorem finishProgram_stall : (finishProgram s).stall = s.stall := rfl
@[simp] theorem finishProgram_ill : (finishProgram s).ill = s.ill := rfl
@[simp] theorem finishProgram_rej : (finishProgram s).rej = s.rej := rfl
@[simp] theorem finishProgram_cause : (finishProgram s).cause = s.cause := rfl
@[simp] theorem finishProgram_fop : (finishProgram s).fop = s.fop := rfl
@[simp] theorem finishProgram_fupc : (finishProgram s).fupc = s.fupc := rfl
@[simp] theorem finishProgram_rdata : (finishProgram s).rdata = s.rdata := rfl
@[simp] theorem finishProgram_roob : (finishProgram s).roob = s.roob := rfl
@[simp] theorem finishProgram_emv : (finishProgram s).emv = s.emv := rfl
@[simp] theorem finishProgram_em : (finishProgram s).em = s.em := rfl
@[simp] theorem finishProgram_winv : (finishProgram s).winv = s.winv := rfl
@[simp] theorem finishProgram_wxs : (finishProgram s).wxs = s.wxs := rfl
@[simp] theorem finishProgram_wxe : (finishProgram s).wxe = s.wxe := rfl
@[simp] theorem finishProgram_wys : (finishProgram s).wys = s.wys := rfl
@[simp] theorem finishProgram_wye : (finishProgram s).wye = s.wye := rfl
@[simp] theorem finishProgram_lutsel : (finishProgram s).lutsel = s.lutsel := rfl
@[simp] theorem finishProgram_pwr : (finishProgram s).pwr = s.pwr := rfl
@[simp] theorem finishProgram_traceRev : (finishProgram s).traceRev = s.traceRev := rfl
@[simp] theorem finishProgram_inbox : (finishProgram s).inbox = s.inbox := rfl
@[simp] theorem finishProgram_busy : (finishProgram s).busy = s.busy := rfl
@[simp] theorem finishProgram_draws : (finishProgram s).draws = s.draws := rfl

/-! `loadOperands` (R22) -/

@[simp] theorem loadOperands_fb (i : Instr) : (loadOperands i s).fb = s.fb := by cases i <;> rfl
@[simp] theorem loadOperands_opc (i : Instr) : (loadOperands i s).opc = s.opc := by cases i <;> rfl
@[simp] theorem loadOperands_rot (i : Instr) : (loadOperands i s).rot = s.rot := by cases i <;> rfl
@[simp] theorem loadOperands_active (i : Instr) : (loadOperands i s).active = s.active := by cases i <;> rfl
@[simp] theorem loadOperands_upc (i : Instr) : (loadOperands i s).upc = s.upc := by cases i <;> rfl
@[simp] theorem loadOperands_bidx (i : Instr) : (loadOperands i s).bidx = s.bidx := by cases i <;> rfl
@[simp] theorem loadOperands_pollcnt (i : Instr) : (loadOperands i s).pollcnt = s.pollcnt := by cases i <;> rfl
@[simp] theorem loadOperands_pins (i : Instr) : (loadOperands i s).pins = s.pins := by cases i <;> rfl
@[simp] theorem loadOperands_fault (i : Instr) : (loadOperands i s).fault = s.fault := by cases i <;> rfl
@[simp] theorem loadOperands_stall (i : Instr) : (loadOperands i s).stall = s.stall := by cases i <;> rfl
@[simp] theorem loadOperands_ill (i : Instr) : (loadOperands i s).ill = s.ill := by cases i <;> rfl
@[simp] theorem loadOperands_rej (i : Instr) : (loadOperands i s).rej = s.rej := by cases i <;> rfl
@[simp] theorem loadOperands_cause (i : Instr) : (loadOperands i s).cause = s.cause := by cases i <;> rfl
@[simp] theorem loadOperands_fop (i : Instr) : (loadOperands i s).fop = s.fop := by cases i <;> rfl
@[simp] theorem loadOperands_fupc (i : Instr) : (loadOperands i s).fupc = s.fupc := by cases i <;> rfl
@[simp] theorem loadOperands_rdata (i : Instr) : (loadOperands i s).rdata = s.rdata := by cases i <;> rfl
@[simp] theorem loadOperands_roob (i : Instr) : (loadOperands i s).roob = s.roob := by cases i <;> rfl
@[simp] theorem loadOperands_emv (i : Instr) : (loadOperands i s).emv = s.emv := by cases i <;> rfl
@[simp] theorem loadOperands_em (i : Instr) : (loadOperands i s).em = s.em := by cases i <;> rfl
@[simp] theorem loadOperands_winv (i : Instr) : (loadOperands i s).winv = s.winv := by cases i <;> rfl
@[simp] theorem loadOperands_wxs (i : Instr) : (loadOperands i s).wxs = s.wxs := by cases i <;> rfl
@[simp] theorem loadOperands_wxe (i : Instr) : (loadOperands i s).wxe = s.wxe := by cases i <;> rfl
@[simp] theorem loadOperands_wys (i : Instr) : (loadOperands i s).wys = s.wys := by cases i <;> rfl
@[simp] theorem loadOperands_wye (i : Instr) : (loadOperands i s).wye = s.wye := by cases i <;> rfl
@[simp] theorem loadOperands_lutsel (i : Instr) : (loadOperands i s).lutsel = s.lutsel := by cases i <;> rfl
@[simp] theorem loadOperands_pwr (i : Instr) : (loadOperands i s).pwr = s.pwr := by cases i <;> rfl
@[simp] theorem loadOperands_traceRev (i : Instr) : (loadOperands i s).traceRev = s.traceRev := by cases i <;> rfl
@[simp] theorem loadOperands_inbox (i : Instr) : (loadOperands i s).inbox = s.inbox := by cases i <;> rfl
@[simp] theorem loadOperands_busy (i : Instr) : (loadOperands i s).busy = s.busy := by cases i <;> rfl
@[simp] theorem loadOperands_draws (i : Instr) : (loadOperands i s).draws = s.draws := by cases i <;> rfl

/-! `latch` (R92) -/

@[simp] theorem latch_fb (i : Instr) : (latch i s).fb = s.fb := by simp [latch]
@[simp] theorem latch_opc (i : Instr) : (latch i s).opc = opcodeOf i := by simp [latch]
@[simp] theorem latch_rot (i : Instr) : (latch i s).rot = s.rot := by simp [latch]
@[simp] theorem latch_active (i : Instr) : (latch i s).active = s.active := by simp [latch]
@[simp] theorem latch_upc (i : Instr) : (latch i s).upc = s.upc := by simp [latch]
@[simp] theorem latch_bidx (i : Instr) : (latch i s).bidx = s.bidx := by simp [latch]
@[simp] theorem latch_pollcnt (i : Instr) : (latch i s).pollcnt = s.pollcnt := by simp [latch]
@[simp] theorem latch_pins (i : Instr) : (latch i s).pins = s.pins := by simp [latch]
@[simp] theorem latch_fault (i : Instr) : (latch i s).fault = s.fault := by simp [latch]
@[simp] theorem latch_stall (i : Instr) : (latch i s).stall = s.stall := by simp [latch]
@[simp] theorem latch_ill (i : Instr) : (latch i s).ill = s.ill := by simp [latch]
@[simp] theorem latch_rej (i : Instr) : (latch i s).rej = s.rej := by simp [latch]
@[simp] theorem latch_cause (i : Instr) : (latch i s).cause = s.cause := by simp [latch]
@[simp] theorem latch_fop (i : Instr) : (latch i s).fop = s.fop := by simp [latch]
@[simp] theorem latch_fupc (i : Instr) : (latch i s).fupc = s.fupc := by simp [latch]
@[simp] theorem latch_rdata (i : Instr) : (latch i s).rdata = s.rdata := by simp [latch]
@[simp] theorem latch_roob (i : Instr) : (latch i s).roob = s.roob := by simp [latch]
@[simp] theorem latch_emv (i : Instr) : (latch i s).emv = s.emv := by simp [latch]
@[simp] theorem latch_em (i : Instr) : (latch i s).em = s.em := by simp [latch]
@[simp] theorem latch_winv (i : Instr) : (latch i s).winv = s.winv := by simp [latch]
@[simp] theorem latch_wxs (i : Instr) : (latch i s).wxs = s.wxs := by simp [latch]
@[simp] theorem latch_wxe (i : Instr) : (latch i s).wxe = s.wxe := by simp [latch]
@[simp] theorem latch_wys (i : Instr) : (latch i s).wys = s.wys := by simp [latch]
@[simp] theorem latch_wye (i : Instr) : (latch i s).wye = s.wye := by simp [latch]
@[simp] theorem latch_lutsel (i : Instr) : (latch i s).lutsel = s.lutsel := by simp [latch]
@[simp] theorem latch_pwr (i : Instr) : (latch i s).pwr = s.pwr := by simp [latch]
@[simp] theorem latch_traceRev (i : Instr) : (latch i s).traceRev = s.traceRev := by simp [latch]
@[simp] theorem latch_inbox (i : Instr) : (latch i s).inbox = s.inbox := by simp [latch]
@[simp] theorem latch_busy (i : Instr) : (latch i s).busy = s.busy := by simp [latch]
@[simp] theorem latch_draws (i : Instr) : (latch i s).draws = s.draws := by simp [latch]

end Sys2Proof.Machine
end

