-- ==== Sys2Proof/Laws/Wait.lean ====
section
/-! SUPPORT. The busy wait (R129, R292) in closed form: how many samples it takes, what it leaves, and when it
raises. -/

namespace Sys2Proof.Machine

/-- R43: the draw behind a sample depends on the panel's levels alone. -/
theorem upcomingBusy_congr {s t : State} (hb : t.busy = s.busy) (hd : t.draws = s.draws) (k : Nat) :
    upcomingBusy t k = upcomingBusy s k := by
  simp [upcomingBusy, hb, hd]

theorem busyLevel_eq (s : State) : busyLevel s = upcomingBusy s 0 := by
  unfold busyLevel upcomingBusy
  cases h : s.busy <;> simp

theorem dropBusy_eq (s : State) :
    dropBusy s = { s with busy := s.busy.drop 1, draws := s.draws + (1 - s.busy.length) } := by
  obtain ⟨⟩ := s
  rename_i busy _
  cases busy <;> simp [dropBusy]

/-- The state after `k` asserted samples of a wait: each one polled, counted, and logged by a precheck. -/
def polled (log : Bool) (k : Nat) (s : State) : State :=
  { s with
    stall := s.stall || (log && decide (0 < k))
    pollcnt := s.pollcnt + k
    traceRev := List.replicate k (.poll true) ++ s.traceRev
    busy := s.busy.drop k
    draws := s.draws + (k - s.busy.length) }

theorem upcomingBusy_polled (log : Bool) (k i : Nat) (s : State) :
    upcomingBusy (polled log k s) i = upcomingBusy s (k + i) := by
  simp only [upcomingBusy, polled, List.getElem?_drop, List.length_drop]
  cases s.busy[k + i]? with
  | some b => rfl
  | none => simp only; congr 1; omega

theorem upcomingBusy_sampleBusy (i : Nat) (s : State) :
    upcomingBusy (sampleBusy s) i = upcomingBusy s (1 + i) := by
  have : upcomingBusy (sampleBusy s) i = upcomingBusy (polled false 1 s) i :=
    upcomingBusy_congr (by simp [polled, dropBusy_eq]) (by simp [polled, dropBusy_eq]) i
  rw [this, upcomingBusy_polled]

theorem polled_zero (log : Bool) (s : State) : polled log 0 s = s := by simp [polled]

/-- One asserted sample more, taken first. -/
theorem polled_succ (log : Bool) (k : Nat) (s : State) (h : busyLevel s = true) :
    polled log k { logStall log (sampleBusy s) with pollcnt := (logStall log (sampleBusy s)).pollcnt + 1 }
      = polled log (k + 1) s := by
  have hlen : s.draws + (1 - s.busy.length) + (k - (s.busy.length - 1)) = s.draws + (k + 1 - s.busy.length) := by
    omega
  have hstall : (s.stall || (log && decide (0 < k + 1))) = ((log || s.stall) || (log && decide (0 < k))) := by
    cases log <;> cases s.stall <;> simp
  have hrep : List.replicate k (Event.poll true) ++ .poll true :: s.traceRev
      = List.replicate (k + 1) (.poll true) ++ s.traceRev := by
    rw [List.replicate_succ', List.append_assoc]; rfl
  simp only [polled, logStall_stall, logStall_pollcnt, logStall_traceRev, logStall_busy, logStall_draws,
    sampleBusy_stall, sampleBusy_pollcnt, sampleBusy_traceRev, sampleBusy_busy, sampleBusy_draws, h, hrep, hstall]
  simp only [dropBusy_eq, List.drop_drop, List.length_drop, hlen]
  simp [Nat.add_comm, Nat.add_left_comm]

/-- R129: everything the poll loop can do: it stops at the first sample that is 0, or raises after the last
one the bound allows. -/
theorem pollLoop_cases (log : Bool) (n : Nat) (s : State) :
    (∃ k, k < n ∧ (∀ i, i < k → upcomingBusy s i = true) ∧ upcomingBusy s k = false ∧
      pollLoop log n s = .done (sampleBusy (polled log k s))) ∨
    ((∀ i, i < n → upcomingBusy s i = true) ∧ pollLoop log n s = .raised (faultEntry (polled log n s))) := by
  induction n generalizing s with
  | zero => exact .inr ⟨by simp, by simp [pollLoop, polled_zero]⟩
  | succ n ih =>
    rw [pollLoop]
    by_cases hb : busyLevel s = true
    · simp only [hb, if_true]
      have up : ∀ i, upcomingBusy
          { logStall log (sampleBusy s) with pollcnt := (logStall log (sampleBusy s)).pollcnt + 1 } i
            = upcomingBusy s (i + 1) := fun i => by
        rw [upcomingBusy_congr (s := sampleBusy s) (by simp) (by simp), upcomingBusy_sampleBusy, Nat.add_comm]
      have h0 : upcomingBusy s 0 = true := by rw [← busyLevel_eq, hb]
      rcases ih { logStall log (sampleBusy s) with pollcnt := (logStall log (sampleBusy s)).pollcnt + 1 } with
        ⟨k, hk, hall, hlast, heq⟩ | ⟨hall, heq⟩
      · refine .inl ⟨k + 1, by omega, fun i hi => ?_, by rw [← up, hlast], by rw [heq, polled_succ log k s hb]⟩
        cases i with
        | zero => exact h0
        | succ i => rw [← up]; exact hall i (by omega)
      · refine .inr ⟨fun i hi => ?_, by rw [heq, polled_succ log n s hb]⟩
        cases i with
        | zero => exact h0
        | succ i => rw [← up]; exact hall i (by omega)
    · simp only [Bool.not_eq_true] at hb
      refine .inl ⟨0, by omega, by simp, by rw [← busyLevel_eq, hb], ?_⟩
      simp [hb, polled_zero]

/-- R292: a wait whose first 0 is sample `k`, within the bound, ends there. -/
theorem pollLoop_done {log : Bool} {n k : Nat} {s : State} (hk : k < n)
    (hall : ∀ i, i < k → upcomingBusy s i = true) (hlast : upcomingBusy s k = false) :
    pollLoop log n s = .done (sampleBusy (polled log k s)) := by
  rcases pollLoop_cases log n s with ⟨j, hj, hallj, hlastj, heq⟩ | ⟨hall', -⟩
  · have : j = k := by
      rcases lt_trichotomy j k with h | h | h
      · rw [hall j h] at hlastj; exact absurd hlastj (by simp)
      · exact h
      · rw [hallj k h] at hlast; exact absurd hlast (by simp)
    rw [heq, this]
  · rw [hall' k hk] at hlast; exact absurd hlast (by simp)

/-- R292: a wait all of whose samples up to the bound are 1 raises, and only then. -/
theorem pollLoop_raised {log : Bool} {n : Nat} {s : State} (hall : ∀ i, i < n → upcomingBusy s i = true) :
    pollLoop log n s = .raised (faultEntry (polled log n s)) := by
  rcases pollLoop_cases log n s with ⟨k, hk, -, hlast, -⟩ | ⟨-, heq⟩
  · rw [hall k hk] at hlast; exact absurd hlast (by simp)
  · exact heq

end Sys2Proof.Machine
end

