-- ==== Sys2Proof/Laws/Engine.lean ====
section
/-! SUPPORT. What running a micro-program can do, said once: it ends completed, with the effect of all its
µops, or with the fault raised at one of them, with the effect of those before it (R121, R297). -/

namespace Sys2Proof.Machine

/-- R131: the level of the RST pin after a list of µops. -/
def rstAfter (p : List Uop) (v : Bool) : Bool :=
  p.foldl (fun w u => match u with
    | .rst x => x
    | .dly _ | .wait | .cmd _ | .dat _ | .burst _ | .sh _ => w) v

/-- The effect of µops `us` performed one after another, each completed and UPC advanced. -/
structure Progress (P : Params) (us : List Uop) (s t : State) : Prop where
  trace : noPolls t.trace = noPolls s.trace ++ linkEvents us
  grows : s.traceRev <:+ t.traceRev
  guarded : commandsGuarded s.traceRev = true → commandsGuarded t.traceRev = true
  shadows : t.shadows = shadowsAfter us s.shadows
  latches : t.latches = s.latches
  record : t.record = s.record
  active : t.active = s.active
  upc : t.upc = s.upc + BitVec.ofNat 16 us.length
  fb : t.fb = s.fb
  rot : t.rot = s.rot
  result : t.rdata = s.rdata ∧ t.roob = s.roob
  ill : t.ill = s.ill
  rej : t.rej = s.rej
  inbox : t.inbox = s.inbox
  stall : s.stall = true → t.stall = true
  bidx : s.bidx = 0 → t.bidx = 0
  link : LinkIdle s.pins → LinkIdle t.pins
  rst : t.pins.rst = rstAfter us s.pins.rst
  samples : ∃ k, k ≤ waitCount us * P.busyMaxPolls ∧ ∀ i, upcomingBusy t i = upcomingBusy s (k + i)

/-- A µop that raised: it waits, every sample up to the bound was asserted, and the state is fault entry's. -/
structure Raised (P : Params) (u : Uop) (s t : State) : Prop where
  waits : u.waits = true
  asserted : ∀ i, i < P.busyMaxPolls → upcomingBusy s i = true
  entry : ∃ log, t = faultEntry (polled log P.busyMaxPolls { s with pollcnt := 0 })

theorem noPolls_append (a b : List Event) : noPolls (a ++ b) = noPolls a ++ noPolls b := by
  simp [noPolls]

theorem noPolls_replicate (k : Nat) (v : Bool) : noPolls (List.replicate k (.poll v)) = [] := by
  simp [noPolls]

theorem trace_polled (log : Bool) (k : Nat) (s : State) :
    (polled log k s).trace = s.trace ++ List.replicate k (.poll true) := by
  simp [State.trace, polled]

theorem noPolls_polled (log : Bool) (k : Nat) (s : State) :
    noPolls (polled log k s).trace = noPolls s.trace := by
  rw [trace_polled, noPolls_append, noPolls_replicate, List.append_nil]

theorem trace_emit (e : Event) (s : State) : (emit e s).trace = s.trace ++ [e] := by
  simp [State.trace]

theorem trace_sampleBusy (s : State) : (sampleBusy s).trace = s.trace ++ [.poll (busyLevel s)] := by
  simp [State.trace]

theorem guarded_poll (v : Bool) (t : List Event) : commandsGuarded (.poll v :: t) = commandsGuarded t := rfl

theorem guarded_polls (k : Nat) (v : Bool) (t : List Event) :
    commandsGuarded (List.replicate k (.poll v) ++ t) = commandsGuarded t := by
  induction k with
  | zero => rfl
  | succ k ih => rw [List.replicate_succ, List.cons_append, guarded_poll, ih]

theorem guarded_dats (l : List Byte) (t : List Event) :
    commandsGuarded (l.map .dat ++ t) = commandsGuarded t := by
  induction l with
  | nil => rfl
  | cons b l ih => exact ih

theorem samples_unused {s t : State} {n : Nat} (hb : t.busy = s.busy) (hd : t.draws = s.draws) :
    ∃ k, k ≤ n ∧ ∀ i, upcomingBusy t i = upcomingBusy s (k + i) :=
  ⟨0, Nat.zero_le n, fun i => by rw [Nat.zero_add]; exact upcomingBusy_congr hb hd i⟩

/-- R129: the state a successful wait leaves, `k` asserted samples and one that is 0. -/
theorem waitBusy_cases (P : Params) (log : Bool) (s : State) :
    (∃ k, k < P.busyMaxPolls ∧ (∀ i, i < k → upcomingBusy s i = true) ∧ upcomingBusy s k = false ∧
      waitBusy P log s = .done (sampleBusy (polled log k { s with pollcnt := 0 }))) ∨
    ((∀ i, i < P.busyMaxPolls → upcomingBusy s i = true) ∧
      waitBusy P log s = .raised (faultEntry (polled log P.busyMaxPolls { s with pollcnt := 0 }))) := by
  have same : ∀ i, upcomingBusy { s with pollcnt := 0 } i = upcomingBusy s i :=
    fun i => upcomingBusy_congr rfl rfl i
  have := pollLoop_cases log P.busyMaxPolls { s with pollcnt := 0 }
  simpa only [waitBusy, same] using this

/-- A completed wait, as progress of no link event, and with its last event a sample that was 0. -/
theorem waited_progress {P : Params} {log : Bool} {s : State} {k : Nat} (hk : k < P.busyMaxPolls)
    (hlast : upcomingBusy s k = false) :
    Progress P [.wait] s (advance (sampleBusy (polled log k { s with pollcnt := 0 }))) ∧
      (sampleBusy (polled log k { s with pollcnt := 0 })).traceRev
        = .poll false :: (List.replicate k (.poll true) ++ s.traceRev) := by
  have hlev : busyLevel (polled log k { s with pollcnt := 0 }) = false := by
    rw [busyLevel_eq, upcomingBusy_polled, Nat.add_zero]
    exact hlast
  refine ⟨?_, by simp [hlev]; simp [polled]⟩
  constructor
  · show noPolls (sampleBusy _).trace = _
    rw [trace_sampleBusy, noPolls_append, noPolls_polled]
    simp [noPolls, linkEvents, Uop.linkEvents, State.trace]
  · exact ⟨.poll false :: List.replicate k (.poll true), by simp [hlev]; simp [polled]⟩
  · intro h; simp [hlev, guarded_poll]; simpa [polled, guarded_polls] using h
  · simp [State.shadows, shadowsAfter, Uop.shadowsAfter]; simp [polled]
  · simp [State.latches]; simp [polled]
  · simp [State.record]; simp [polled]
  · simp; simp [polled]
  · simp; simp [polled]
  · simp; simp [polled]
  · simp; simp [polled]
  · simp; simp [polled]
  · simp; simp [polled]
  · simp; simp [polled]
  · simp; simp [polled]
  · intro h; simp; simp [polled, h]
  · intro h; simp; simpa [polled] using h
  · intro h; simp; simpa [polled] using h
  · simp [rstAfter]; simp [polled]
  · refine ⟨k + 1, by show k + 1 ≤ 1 * P.busyMaxPolls; omega, fun i => ?_⟩
    rw [upcomingBusy_congr (s := sampleBusy (polled log k { s with pollcnt := 0 })) (by simp) (by simp),
      upcomingBusy_sampleBusy, upcomingBusy_polled, ← Nat.add_assoc]
    exact upcomingBusy_congr rfl rfl _

/-- R124 to R130: the effect of a µop that samples nothing. -/
theorem quiet_progress (P : Params) (u : Uop) (s : State) (hu : u.waits = false) :
    ∃ t, perform P u s = .done t ∧ Progress P [u] s (advance t) := by
  cases u with
  | wait => simp [Uop.waits] at hu
  | cmd b => simp [Uop.waits] at hu
  | rst v =>
    refine ⟨_, rfl, ?_⟩
    constructor <;>
      first
      | (simp [noPolls, State.trace, linkEvents, Uop.linkEvents]; done)
      | (simp [commandsGuarded]; done)
      | (cases v <;> simp [State.shadows, State.latches, State.record, shadowsAfter, Uop.shadowsAfter, rstUop,
          rstAfter, LinkIdle]; done)
      | exact samples_unused (by simp) (by simp)
  | dly d =>
    refine ⟨_, rfl, ?_⟩
    constructor <;>
      first
      | (simp [noPolls, State.trace, linkEvents, Uop.linkEvents]; done)
      | (simp [commandsGuarded, State.shadows, State.latches, State.record, shadowsAfter, Uop.shadowsAfter,
          rstAfter])
      | exact samples_unused (by simp) (by simp)
  | dat b =>
    refine ⟨_, rfl, ?_⟩
    constructor <;>
      first
      | (simp [noPolls, State.trace, linkEvents, Uop.linkEvents, sendData]; done)
      | (simp [commandsGuarded, State.shadows, State.latches, State.record, shadowsAfter, Uop.shadowsAfter,
          rstAfter, sendData]; done)
      | (simp_all [sendData, LinkIdle]; done)
      | exact samples_unused (by simp [sendData]) (by simp [sendData])
  | sh a =>
    refine ⟨_, rfl, ?_⟩
    constructor <;>
      first
      | (simp [noPolls, State.trace, linkEvents, Uop.linkEvents]; done)
      | (simp [State.latches, State.record, rstAfter])
      | (cases a <;> rfl)
      | exact samples_unused (by simp) (by simp)
  | burst bs =>
    refine ⟨_, rfl, ?_⟩
    obtain ⟨p', hp', hrst, hlink⟩ : ∃ p', sendBurst bs s = { s with
          pins := p', bidx := 0, traceRev := (bs.map .dat).reverse ++ s.traceRev } ∧ p'.rst = s.pins.rst ∧
          (LinkIdle s.pins → LinkIdle p') := by
      cases bs with
      | nil => exact ⟨s.pins, by simp [sendBurst], rfl, id⟩
      | cons b bs =>
        obtain ⟨m, k, hm, hk⟩ := burstBytes_pins (b :: bs)
          { s with bidx := 0, pins := { s.pins with dc := true, cs := false } }
        refine ⟨_, by rw [sendBurst, burstBytes_eq]; simp, by rw [hm], fun h => ?_⟩
        rw [hm]
        exact ⟨rfl, rfl, hk h.2.2⟩
    show Progress P [.burst bs] s (advance (sendBurst bs s))
    rw [hp']
    constructor <;>
      first
      | (simp [State.shadows, State.latches, State.record, shadowsAfter, Uop.shadowsAfter]; done)
      | (simpa [rstAfter] using hrst)
      | (intro h; simp only [advance_traceRev, ← List.map_reverse, guarded_dats]; exact h)
      | exact hlink
      | (simp [noPolls, State.trace, linkEvents, Uop.linkEvents, List.filter_map, Function.comp_def]; done)
      | exact samples_unused (by simp) (by simp)

/-- The command transfer after a successful precheck. -/
theorem command_progress {P : Params} {s : State} {k : Nat} (b : Byte) (hk : k < P.busyMaxPolls)
    (hlast : upcomingBusy s k = false) :
    Progress P [.cmd b] s (advance (sendCommand b (sampleBusy (polled true k { s with pollcnt := 0 })))) := by
  obtain ⟨w, tr⟩ := waited_progress (P := P) (log := true) hk hlast
  generalize sampleBusy (polled true k { s with pollcnt := 0 }) = m at w tr ⊢
  constructor
  · have hw : noPolls m.trace = noPolls s.trace := by
      have := w.trace
      simpa [State.trace, linkEvents, Uop.linkEvents] using this
    have ht : (advance (sendCommand b m)).trace = m.trace ++ [.cmd b] := by simp [State.trace, sendCommand]
    rw [ht, noPolls_append, hw]
    rfl
  · obtain ⟨l, hl⟩ := w.grows
    exact ⟨.cmd b :: l, by simpa [sendCommand] using hl⟩
  · intro h
    have := w.guarded h
    simp only [advance_traceRev, tr, guarded_poll] at this
    simp [sendCommand, tr, commandsGuarded, this]
  · simpa [State.shadows, sendCommand, shadowsAfter, Uop.shadowsAfter] using w.shadows
  · simpa [State.latches, sendCommand] using w.latches
  · simpa [State.record, sendCommand] using w.record
  · simpa [sendCommand] using w.active
  · simpa [sendCommand] using w.upc
  · simpa [sendCommand] using w.fb
  · simpa [sendCommand] using w.rot
  · simpa [sendCommand] using w.result
  · simpa [sendCommand] using w.ill
  · simpa [sendCommand] using w.rej
  · simpa [sendCommand] using w.inbox
  · simpa [sendCommand] using w.stall
  · simpa [sendCommand] using w.bidx
  · intro _; simp [sendCommand, LinkIdle]
  · simpa [sendCommand, rstAfter] using w.rst
  · obtain ⟨j, hj, hs⟩ := w.samples
    refine ⟨j, by simpa [waitCount, Uop.waits] using hj, fun i => ?_⟩
    rw [← hs]
    exact upcomingBusy_congr (by simp [sendCommand]) (by simp [sendCommand]) _

/-- Everything one µop can do (R120): complete with its effect, or raise. -/
theorem perform_cases (P : Params) (u : Uop) (s : State) :
    (∃ t, perform P u s = .done t ∧ Progress P [u] s (advance t)) ∨
    (∃ t, perform P u s = .raised t ∧ Raised P u s t) := by
  by_cases hu : u.waits = true
  · cases u with
    | wait =>
      rcases waitBusy_cases P false s with ⟨k, hk, -, hlast, heq⟩ | ⟨hall, heq⟩
      · exact .inl ⟨_, heq, (waited_progress hk hlast).1⟩
      · exact .inr ⟨_, heq, ⟨rfl, hall, false, rfl⟩⟩
    | cmd b =>
      rcases waitBusy_cases P true s with ⟨k, hk, -, hlast, heq⟩ | ⟨hall, heq⟩
      · exact .inl ⟨_, by rw [perform, heq], command_progress b hk hlast⟩
      · exact .inr ⟨_, by rw [perform, heq], ⟨rfl, hall, true, rfl⟩⟩
    | rst _ | dly _ | dat _ | burst _ | sh _ => simp [Uop.waits] at hu
  · obtain ⟨t, ht⟩ := quiet_progress P u s (by simpa using hu)
    exact .inl ⟨t, ht⟩

namespace Progress

theorem refl (P : Params) (s : State) : Progress P [] s s := by
  constructor <;> first | exact List.suffix_refl _ | exact id | exact ⟨0, by simp, fun i => by simp⟩ | simp [linkEvents, shadowsAfter, rstAfter]

theorem trans {P : Params} {us vs : List Uop} {s t r : State} (h : Progress P us s t) (g : Progress P vs t r) :
    Progress P (us ++ vs) s r where
  trace := by rw [g.trace, h.trace]; simp [linkEvents]
  grows := h.grows.trans g.grows
  guarded := fun x => g.guarded (h.guarded x)
  shadows := by rw [g.shadows, h.shadows]; simp [shadowsAfter]
  latches := g.latches.trans h.latches
  record := g.record.trans h.record
  active := g.active.trans h.active
  upc := by rw [g.upc, h.upc, List.length_append, BitVec.ofNat_add, BitVec.add_assoc]
  fb := g.fb.trans h.fb
  rot := g.rot.trans h.rot
  result := ⟨g.result.1.trans h.result.1, g.result.2.trans h.result.2⟩
  ill := g.ill.trans h.ill
  rej := g.rej.trans h.rej
  inbox := g.inbox.trans h.inbox
  stall := fun x => g.stall (h.stall x)
  bidx := fun x => g.bidx (h.bidx x)
  link := fun x => g.link (h.link x)
  rst := by rw [g.rst, h.rst]; simp [rstAfter]
  samples := by
    obtain ⟨j, hj, hs⟩ := h.samples
    obtain ⟨k, hk, hr⟩ := g.samples
    refine ⟨j + k, ?_, fun i => by rw [hr, hs, Nat.add_assoc]⟩
    simp only [waitCount, List.countP_append, Nat.add_mul] at *
    omega

end Progress

/-- Everything a run of a micro-program can do (R121, R297): all its µops performed, or those before one that
raised. -/
theorem runProgram_cases (P : Params) (us : List Uop) (s : State) :
    (∃ t, runProgram P us s = finishProgram t ∧ Progress P us s t) ∨
    (∃ pre u post t, us = pre ++ u :: post ∧ Progress P pre s t ∧ Raised P u t (runProgram P us s)) := by
  induction us generalizing s with
  | nil => exact .inl ⟨s, rfl, .refl P s⟩
  | cons u us ih =>
    rcases perform_cases P u s with ⟨t, ht, hp⟩ | ⟨t, ht, hr⟩
    · rw [runProgram, ht]
      rcases ih (advance t) with ⟨r, hr, hq⟩ | ⟨pre, v, post, r, rfl, hq, hv⟩
      · exact .inl ⟨r, hr, hp.trans hq⟩
      · exact .inr ⟨u :: pre, v, post, r, rfl, hp.trans hq, hv⟩
    · exact .inr ⟨[], u, us, s, rfl, .refl P s, by rw [runProgram, ht]; exact hr⟩

/-- R43, R292: a panel that answers every wait in time lets a micro-program run to its end. -/
theorem runProgram_answered {P : Params} {us : List Uop} {s : State} (hP : 1 ≤ P.busyMaxPolls)
    (h : AnswersAll P us s) :
    ∃ t, runProgram P us s = finishProgram t ∧ Progress P us s t := by
  rcases runProgram_cases P us s with h' | ⟨pre, u, post, t, rfl, hp, hr⟩
  · exact h'
  · exfalso
    obtain ⟨k, hk, hs⟩ := hp.samples
    have hw : waitCount (pre ++ u :: post) = waitCount pre + (1 + waitCount post) := by
      simp [waitCount, List.countP_append, hr.waits, Nat.add_comm]
    have hlt : k < waitCount (pre ++ u :: post) * P.busyMaxPolls := by
      rw [hw, Nat.add_mul, Nat.add_mul]; omega
    obtain ⟨j, hj, hf⟩ := h k hlt
    rw [← hs, hr.asserted j hj] at hf
    exact absurd hf (by simp)

end Sys2Proof.Machine
end

