-- ==== Sys2Proof/Laws/Exec.lean ====
section
/-! SUPPORT. `exec` said once: it is `execUnder` at this machine's parameters; a link operation is `linkOp` of
its expansion; and what acceptance can do. -/

namespace Sys2Proof.Machine

/-- R7: `exec` is the instance of `execUnder` at `Config.params`; it never faults and never refuses. -/
theorem exec_eq (i : Instr) (s : State) : exec i s = .next (execUnder Config.params i s) := by
  cases i <;> rfl

@[simp] theorem lo_byteOperand (b : Byte) : lo (byteOperand b) = b := by
  simp [lo, byteOperand]

/-- R25: a link operation runs the expansion of its own latches. -/
theorem execUnder_link (P : Params) {i : Instr} (h : isLink i = true) (s : State) :
    execUnder P i s = linkOp P i (expand P (latch i s)) s := by
  cases i <;> first
    | (simp [execUnder, expand, latch, loadOperands, opcodeOf, resetOp, wcmdOp, wdatOp, wdatnOp, waitbOp, initdispOp,
        setemOp, initfullOp, initpartOp, updfullOp, updpartOp, pwronOp, pwroffOp, initOp, updateOp, updwinOp,
        eraseOp]; done)
    | simp [isLink] at h

/-- R92, R299: everything acceptance can do. -/
theorem accept_cases (i : Instr) (body : State → State) (s : State) :
    (s.active = true ∧ accept i body s = s) ∨
    (s.active = false ∧ i.wellFormed = false ∧ accept i body s = rejectIllegal s) ∨
    (s.active = false ∧ i.wellFormed = true ∧ isLink i = true ∧ s.fault = true ∧
      accept i body s = refuseLink (latch i s)) ∨
    (s.active = false ∧ i.wellFormed = true ∧ (isLink i = true → s.fault = false) ∧
      accept i body s = body (latch i s)) := by
  unfold accept
  by_cases ha : s.active = true
  · simp [ha]
  · by_cases hw : i.wellFormed = true
    · by_cases hf : (isLink i && s.fault) = true
      · simp_all
      · simp_all
    · simp_all

/-- R92: an operation that acceptance lets through. -/
theorem accept_through {i : Instr} {body : State → State} {s : State} (ha : s.active = false)
    (hw : i.wellFormed = true) (hf : isLink i = true → s.fault = false) : accept i body s = body (latch i s) := by
  unfold accept
  by_cases hl : isLink i = true
  · simp [ha, hw, hf hl]
  · simp [ha, hw, hl]

/-- R121: a link operation accepted with FAULT = 0 and answered by the panel runs to its end. -/
theorem execUnder_completes {P : Params} (hP : 1 ≤ P.busyMaxPolls) {i : Instr} {s : State} (hl : isLink i = true)
    (hw : i.wellFormed = true) (ha : s.active = false) (hf : s.fault = false)
    (h : AnswersAll P (expand P (latch i s)) s) :
    ∃ t, execUnder P i s = finishProgram t ∧
      Progress P (expand P (latch i s)) (startProgram (latch i s)) t := by
  rw [execUnder_link P hl, linkOp, accept_through ha hw fun _ => hf]
  refine runProgram_answered hP fun k hk => ?_
  obtain ⟨j, hj, hz⟩ := h k hk
  exact ⟨j, hj, (upcomingBusy_congr (by simp) (by simp) _).trans hz⟩

/-- R22, R92: the latches acceptance leaves. -/
theorem latch_latches {i : Instr} (h : isPanel i = false) (s : State) :
    (latch i s).latches = acceptedLatches i s.latches := by
  cases i <;> first | rfl | simp [isPanel] at h

/-- R93: a panel command is no link operation. -/
theorem isPanel_of_isLink {i : Instr} (h : isLink i = true) : isPanel i = false := by
  cases i <;> first | rfl | simp [isLink] at h

theorem foldl_rst_quiet {p : List Uop} (h : ∀ v, Uop.rst v ∉ p) (v : Bool) : rstAfter p v = v := by
  induction p generalizing v with
  | nil => rfl
  | cons u us ih =>
    have hu := h
    cases u with
    | rst w => exact absurd (h w) (by simp)
    | dly _ | wait | cmd _ | dat _ | burst _ | sh _ => exact ih (fun w hw => h w (by simp [hw])) v

theorem rstAfter_append (p q : List Uop) (v : Bool) : rstAfter (p ++ q) v = rstAfter q (rstAfter p v) := by
  simp [rstAfter]

theorem regWrite_quiet (c : Byte) (ds : List Byte) (v : Bool) : Uop.rst v ∉ regWrite c ds := by
  simp [regWrite]

theorem windowAndPointer_quiet (w : Window) (v : Bool) : Uop.rst v ∉ windowAndPointer w := by
  simp [windowAndPointer, ramArea, ramPtr]

theorem initDispSeq_quiet (P : Params) (em : Byte) (v : Bool) : Uop.rst v ∉ initDispSeq P em := by
  simp [initDispSeq, regWrite_quiet, ramArea, setEmSeq, windowAndPointer_quiet]

theorem initFullSeq_quiet (P : Params) (em : Byte) (v : Bool) : Uop.rst v ∉ initFullSeq P em := by
  simp [initFullSeq, initDispSeq_quiet, lutSeq, pwrOnSeq]

theorem initPartSeq_quiet (P : Params) (em : Byte) (v : Bool) : Uop.rst v ∉ initPartSeq P em := by
  simp [initPartSeq, initDispSeq_quiet, regWrite_quiet, lutSeq, pwrOnSeq]

theorem dualStream_quiet (P : Params) (bs : List Byte) {gap rp : List Uop} (v : Bool) (hg : Uop.rst v ∉ gap)
    (hr : Uop.rst v ∉ rp) : Uop.rst v ∉ dualStream P bs gap rp := by
  unfold dualStream
  split <;> simp [hg, hr]

/-- R131, R180: only the two reset sequences move the RST pin. -/
theorem expand_quiet (P : Params) (s : State) (h1 : s.opc.toNat ≠ 0x81) (h2 : s.opc.toNat ≠ 0xA0) (v : Bool) :
    Uop.rst v ∉ expand P s := by
  unfold expand
  split <;> first
    | contradiction
    | simp [initDispSeq_quiet, initFullSeq_quiet, initPartSeq_quiet, setEmSeq, windowAndPointer_quiet,
        updFullSeq, updPartSeq, act, pwrOnSeq, pwrOffSeq]
    | (simp [updateSeq, eraseSeq, initFullSeq_quiet, updFullSeq, act, pwrOffSeq]
       exact dualStream_quiet P _ v (by simp) (windowAndPointer_quiet _ v))
    | (unfold updwinSeq
       split
       · simp
       · simp [updwinRectSeq, initPartSeq_quiet, windowAndPointer_quiet, updPartSeq, act]
         exact dualStream_quiet P _ v (by simp) (windowAndPointer_quiet _ v))

/-- R131, R296: every micro-program that starts with RST high ends with RST high. -/
theorem rstAfter_expand (P : Params) (s : State) : rstAfter (expand P s) true = true := by
  by_cases h1 : s.opc.toNat = 0x81
  · simp [expand, h1]; rfl
  · by_cases h2 : s.opc.toNat = 0xA0
    · simp [expand, h2]; rfl
    · exact foldl_rst_quiet (expand_quiet P s h1 h2) true

/-- R120, R130, R121: what a completed link operation leaves. -/
theorem completed_of_progress {P : Params} {i : Instr} {p : List Uop} {s t : State}
    (hl : isLink i = true) (hr : rstAfter p true = true) (h : Progress P p (startProgram (latch i s)) t) :
    Completed i (linkEvents p) (shadowsAfter p s.shadows) s (finishProgram t) where
  idle := by simp
  record := by simpa [State.record] using h.record
  trace := by simpa [State.trace] using h.trace
  shadows := by simpa [State.shadows] using h.shadows
  latches := by rw [← latch_latches (isPanel_of_isLink hl)]; simpa [State.latches] using h.latches
  frame :=
    { fb := fun a => by rw [finishProgram_fb, h.fb]; simp
      rot := by simpa using h.rot
      result := by simpa using h.result
      ill := by simpa using h.ill
      rej := by simpa using h.rej
      inbox := by simpa using h.inbox
      stall := by simpa using h.stall
      link := by simpa using h.link
      bidx := by simpa using h.bidx
      rst := fun hs => by
        have := h.rst
        simp only [startProgram_pins, latch_pins, hs] at this
        simpa [hr] using this }

/-- The completion of every link operation, in the terms the claims use. -/
theorem exec_completed {i : Instr} {s : State} (hl : isLink i = true) (hw : i.wellFormed = true)
    (ha : s.active = false) (hf : s.fault = false)
    (h : AnswersAll Config.params (expand Config.params (latch i s)) s) :
    ∃ t, exec i s = .next t ∧
      Completed i (linkEvents (expand Config.params (latch i s)))
        (shadowsAfter (expand Config.params (latch i s)) s.shadows) s t := by
  obtain ⟨t, ht, hp⟩ := execUnder_completes params_wf.polls hl hw ha hf h
  exact ⟨_, by rw [exec_eq, ht], completed_of_progress hl (rstAfter_expand _ _) hp⟩

end Sys2Proof.Machine
end

