-- ==== Sys2Proof/Laws/Program.lean ====
section
/-! SUPPORT. Micro-programs as lists: the link events, the shadow writes and the busy waits of appended
programs, and those of each generator's fixed part. -/

namespace Sys2Proof.Machine

@[simp] theorem linkEvents_nil : linkEvents [] = [] := rfl

theorem linkEvents_append (p q : List Uop) : linkEvents (p ++ q) = linkEvents p ++ linkEvents q := by
  simp [linkEvents]

theorem linkEvents_cons (u : Uop) (p : List Uop) : linkEvents (u :: p) = u.linkEvents ++ linkEvents p := by
  simp [linkEvents]

/-- R120: the link events of `REG(c, ds)`. -/
theorem linkEvents_regWrite (c : Byte) (ds : List Byte) : linkEvents (regWrite c ds) = .cmd c :: ds.map .dat := by
  have : linkEvents (ds.map .dat) = ds.map .dat := by
    induction ds with
    | nil => rfl
    | cons d ds ih => rw [List.map_cons, linkEvents_cons, ih]; rfl
  rw [regWrite, linkEvents_cons, this]; rfl

@[simp] theorem shadowsAfter_nil (h : Shadows) : shadowsAfter [] h = h := rfl

theorem shadowsAfter_append (p q : List Uop) (h : Shadows) :
    shadowsAfter (p ++ q) h = shadowsAfter q (shadowsAfter p h) := by simp [shadowsAfter]

theorem shadowsAfter_cons (u : Uop) (p : List Uop) (h : Shadows) :
    shadowsAfter (u :: p) h = shadowsAfter p (u.shadowsAfter h) := rfl

/-- R29: raw data writes no shadow. -/
theorem shadowsAfter_regWrite (c : Byte) (ds : List Byte) (h : Shadows) : shadowsAfter (regWrite c ds) h = h := by
  unfold regWrite
  rw [shadowsAfter_cons]
  show shadowsAfter (ds.map .dat) h = h
  induction ds with
  | nil => rfl
  | cons d ds ih => exact ih

/-- R151, R153: a window and its counter leave the window in the shadows. -/
theorem shadowsAfter_windowAndPointer (w : Window) (h : Shadows) :
    shadowsAfter (windowAndPointer w) h = { h with win := w, winv := true } := rfl

/-- R181: the two streams write no shadow of their own. -/
theorem shadowsAfter_dualStream {P : Params} {bs : List Byte} {gap rp : List Uop} {h : Shadows}
    (hg : shadowsAfter gap h = h) (hr : shadowsAfter rp h = h) : shadowsAfter (dualStream P bs gap rp) h = h := by
  unfold dualStream
  simp only [shadowsAfter_append]
  have hd : ∀ c k, shadowsAfter [.cmd c, .burst bs] k = k := fun _ _ => rfl
  rw [hd, hd, hg]
  split
  · exact hr
  · rfl

@[simp] theorem waitCount_nil : waitCount [] = 0 := rfl

theorem waitCount_append (p q : List Uop) : waitCount (p ++ q) = waitCount p + waitCount q := by simp [waitCount]

theorem waitCount_regWrite (c : Byte) (ds : List Byte) : waitCount (regWrite c ds) = 1 := by
  have : waitCount (ds.map .dat) = 0 := by
    induction ds with
    | nil => rfl
    | cons d ds ih => exact ih
  show (regWrite c ds).countP Uop.waits = 1
  rw [regWrite, List.countP_cons]
  unfold waitCount at this
  simp [this, Uop.waits]

theorem waitCount_dualStream (P : Params) (bs : List Byte) (gap rp : List Uop) :
    waitCount (dualStream P bs gap rp) = 2 + waitCount gap + if P.repointSecondBurst then waitCount rp else 0 := by
  unfold dualStream
  simp only [waitCount_append]
  have hd : ∀ c, waitCount [.cmd c, .burst bs] = 1 := fun _ => rfl
  rw [hd, hd]
  split
  · omega
  · rw [waitCount_nil]; omega

/-- R152: what clamping the entry mode can give. -/
theorem clampEntryMode_cases (em : Byte) :
    (em.toNat = 0 ∧ clampEntryMode em = 0) ∨ (em.toNat = 1 ∧ clampEntryMode em = 1) ∨
      (em.toNat = 2 ∧ clampEntryMode em = 2) ∨ (3 ≤ em.toNat ∧ clampEntryMode em = 3) := by
  revert em; decide

end Sys2Proof.Machine
end

