-- ==== Sys2Proof/Laws/Fault.lean ====
section
/-! SUPPORT. How long micro-programs are (R24, R164, R189), and what a link operation that meets the fault leaves
(R296, R297). -/

namespace Sys2Proof.Machine

/-! ### Lengths -/

@[simp] theorem regWrite_length (c : Byte) (ds : List Byte) : (regWrite c ds).length = 1 + ds.length := by
  simp [regWrite, Nat.add_comm]

@[simp] theorem windowAndPointer_length (w : Window) : (windowAndPointer w).length = 14 := rfl

@[simp] theorem setEmSeq_length (em : Byte) : (setEmSeq em).length = 17 := rfl

/-- R164: `len(INITDISPSEQ) = 35 + S`. -/
@[simp] theorem initDispSeq_length (P : Params) (em : Byte) : (initDispSeq P em).length = 35 + P.reg.total := by
  simp only [initDispSeq, List.length_append, regWrite_length, setEmSeq_length, RegisterData.total]
  show _ + 9 + _ + _ + _ + _ + _ + _ + _ = _
  omega

@[simp] theorem initFullSeq_length (P : Params) (em : Byte) : (initFullSeq P em).length = 43 + P.reg.total := by
  simp only [initFullSeq, List.length_append, initDispSeq_length]
  show _ + 3 + 5 = _
  omega

@[simp] theorem initPartSeq_length (P : Params) (em : Byte) : (initPartSeq P em).length = 45 + P.reg.total := by
  simp only [initPartSeq, List.length_append, initDispSeq_length]
  show _ + 2 + 3 + 5 = _
  omega

@[simp] theorem dualStream_length (P : Params) (bs : List Byte) (gap rp : List Uop) :
    (dualStream P bs gap rp).length = 4 + gap.length + if P.repointSecondBurst then rp.length else 0 := by
  unfold dualStream
  simp only [List.length_append]
  show 2 + _ + _ + 2 = _
  split
  · omega
  · rw [List.length_nil]; omega

/-- R189: `len(P of UPDATE)`. -/
@[simp] theorem updateSeq_length (P : Params) (fb : List Host.Cell) : (updateSeq P fb).length =
    56 + P.reg.total + if P.repointSecondBurst then 14 else 0 := by
  simp only [updateSeq, List.length_append, initFullSeq_length, dualStream_length, windowAndPointer_length]
  show _ + (4 + 0 + _) + 4 + 5 = _
  omega

@[simp] theorem eraseSeq_length (P : Params) : (eraseSeq P).length =
    56 + P.reg.total + if P.repointSecondBurst then 14 else 0 := by
  simp only [eraseSeq, List.length_append, initFullSeq_length, dualStream_length, windowAndPointer_length]
  show _ + (4 + 0 + _) + 4 + 5 = _
  omega

@[simp] theorem updwinRectSeq_length (P : Params) (fb : List Host.Cell) (r : Rect) :
    (updwinRectSeq P fb r).length = 68 + P.reg.total + if P.repointSecondBurst then 14 else 0 := by
  simp only [updwinRectSeq, List.length_append, initPartSeq_length, dualStream_length, windowAndPointer_length]
  show _ + 14 + (4 + 1 + _) + 4 = _
  omega

theorem updwinSeq_length_le (P : Params) (fb : List Host.Cell) (x y w h : U16) :
    (updwinSeq P fb x y w h).length ≤ P.longestProgram := by
  unfold updwinSeq
  split
  · exact Nat.zero_le _
  · exact Nat.le_of_eq (updwinRectSeq_length ..)

/-- R24: every micro-program is shorter than 65536 µops, so UPC cannot wrap. -/
theorem expand_length_lt {P : Params} (hP : P.Wf) (s : State) : (expand P s).length < 65536 := by
  have := hP.programs
  have hw := updwinSeq_length_le P s.fb s.a0 s.a1 s.a2 s.a3
  unfold Params.longestProgram at this
  unfold expand
  split <;> first
    | (simp only [initDispSeq_length, initFullSeq_length, initPartSeq_length, setEmSeq_length]; omega)
    | (rw [updateSeq_length]; omega)
    | (rw [eraseSeq_length]; omega)
    | exact Nat.lt_of_le_of_lt hw hP.programs
    | (show _ < _; decide)
    | decide
    | simp

/-! ### The RST pin at a µop that waits -/

/-- R296: every µop that waits comes after any `RST 0`, `RST 1` pair. -/
theorem rstAfter_before_wait {P : Params} {s : State} {pre post : List Uop} {u : Uop}
    (h : expand P s = pre ++ u :: post) (hu : u.waits = true) : rstAfter pre true = true := by
  have quiet : ∀ p : List Uop, (∀ v, Uop.rst v ∉ p ++ u :: post) → rstAfter p true = true := fun p hp =>
    foldl_rst_quiet (fun v hv => hp v (by simp [hv])) true
  have chain : ∀ q : List Uop, (∀ v, Uop.rst v ∉ q) → resetSeq ++ q = pre ++ u :: post →
      rstAfter pre true = true := fun q hq he => by
    rcases List.append_eq_append_iff.mp he with ⟨as, rfl, ha⟩ | ⟨bs, hb, hc⟩
    · rw [rstAfter_append]
      refine foldl_rst_quiet (fun v hv => hq v ?_) _
      rw [ha]; simp [hv]
    · match pre, hb with
      | [], _ => rfl
      | [_], hb => simp only [resetSeq, List.cons_append, List.nil_append, List.cons.injEq] at hb
                   obtain ⟨rfl, rfl⟩ := hb
                   simp only [List.cons_append, List.cons.injEq] at hc
                   rw [hc.1] at hu; simp [Uop.waits] at hu
      | [_, _], hb => simp only [resetSeq, List.cons_append, List.nil_append, List.cons.injEq] at hb
                      obtain ⟨rfl, rfl, rfl⟩ := hb
                      simp only [List.cons_append, List.cons.injEq] at hc
                      rw [hc.1] at hu; simp [Uop.waits] at hu
      | _ :: _ :: _ :: l, hb =>
        simp only [resetSeq, List.cons_append, List.cons.injEq] at hb
        obtain ⟨rfl, rfl, rfl, hl⟩ := hb
        refine foldl_rst_quiet (p := l) (fun v hv => ?_) true
        have : Uop.rst v ∈ [Uop.dly .rstSettle, .wait] := by rw [hl]; simp [hv]
        simp at this
  by_cases h1 : s.opc.toNat = 0x81
  · have : expand P s = resetSeq ++ [] := by simp [expand, h1]
    exact chain [] (by simp) (this.symm.trans h)
  · by_cases h2 : s.opc.toNat = 0xA0
    · have : expand P s = resetSeq ++ [.cmd 0x12, .wait] := by simp [expand, h2, initSeq]
      exact chain _ (by simp) (this.symm.trans h)
    · exact quiet pre fun v => h ▸ expand_quiet P s h1 h2 v

/-! ### A link operation that meets the fault -/

/-- R296, R297: what a µop that raised leaves of the operation it stopped. -/
theorem faultedAt_of_raised {i : Instr} {pre post : List Uop} {u : Uop} {s t r : State} (hl : isLink i = true)
    (he : expand Config.params (latch i s) = pre ++ u :: post)
    (hp : Progress Config.params pre (startProgram (latch i s)) t) (hr : Raised Config.params u t r) :
    FaultedAt i pre.length (linkEvents pre) (shadowsAfter pre s.shadows) s r := by
  obtain ⟨log, rfl⟩ := hr.entry
  have hopc : t.opc = opcodeOf i := by
    have := congrArg Latches.opc hp.latches
    simpa [State.latches, latch_opc] using this
  have hupc : t.upc = BitVec.ofNat 16 pre.length := by rw [hp.upc]; simp
  have tr : ∀ k q, (faultEntry (polled log k q)).trace = q.trace ++ List.replicate k (.poll true) := fun k q => by
    rw [← trace_polled log k q]; rfl
  exact
    { idle := ⟨rfl, rfl, rfl, rfl, rfl, rfl⟩
      record := by
        show FaultRecord.mk true 1 t.opc t.upc = _
        rw [hopc, hupc]
      pollcnt := by show 0 + _ = _; omega
      trace := by
        rw [tr, noPolls_append, noPolls_replicate, List.append_nil]
        show noPolls t.trace = _
        rw [hp.trace]
        simp [State.trace]
      lastSamples := by rw [tr]; exact List.suffix_append _ _
      shadows := by
        show t.shadows = _
        rw [hp.shadows]
        simp [State.shadows]
      latches := by
        show t.latches = _
        rw [hp.latches, ← latch_latches (isPanel_of_isLink hl)]
        rfl
      frame :=
        { fb := fun a => by
            show readByte t.fb a = _
            rw [hp.fb]; simp
          rot := by show t.rot = _; rw [hp.rot]; simp
          result := by show t.rdata = _ ∧ t.roob = _; simpa using hp.result
          ill := by show t.ill = _; rw [hp.ill]; simp
          rej := by show t.rej = _; rw [hp.rej]; simp
          inbox := by show t.inbox = _; rw [hp.inbox]; simp
          stall := fun h => by
            have := hp.stall (by simpa using h)
            show (t.stall || _) = true
            rw [this]; rfl
          link := fun _ => ⟨rfl, rfl, rfl⟩
          rst := fun h => by
            show t.pins.rst = true
            rw [hp.rst]
            simp only [startProgram_pins, latch_pins, h]
            exact rstAfter_before_wait he hr.waits
          bidx := fun _ => rfl } }

/-- R296, R297: everything a link operation accepted with FAULT = 0 can do. -/
theorem exec_link_cases {i : Instr} {s : State} (hl : isLink i = true) (hw : i.wellFormed = true)
    (ha : s.active = false) (hf : s.fault = false) :
    (∃ t, exec i s = .next (finishProgram t) ∧
      Progress Config.params (expand Config.params (latch i s)) (startProgram (latch i s)) t ∧
      Completed i (linkEvents (expand Config.params (latch i s)))
        (shadowsAfter (expand Config.params (latch i s)) s.shadows) s (finishProgram t)) ∨
    (∃ pre u post t r, expand Config.params (latch i s) = pre ++ u :: post ∧ exec i s = .next r ∧
      Progress Config.params pre (startProgram (latch i s)) t ∧ Raised Config.params u t r ∧
      FaultedAt i pre.length (linkEvents pre) (shadowsAfter pre s.shadows) s r) := by
  have he : exec i s =
      .next (runProgram Config.params (expand Config.params (latch i s)) (startProgram (latch i s))) := by
    rw [exec_eq, execUnder_link _ hl, linkOp, accept_through ha hw fun _ => hf]
  rcases runProgram_cases Config.params (expand Config.params (latch i s)) (startProgram (latch i s)) with
    ⟨t, ht, hp⟩ | ⟨pre, u, post, t, hs, hp, hr⟩
  · exact .inl ⟨t, by rw [he, ht], hp, completed_of_progress hl (rstAfter_expand _ _) hp⟩
  · exact .inr ⟨pre, u, post, t, _, hs, he, hp, hr, faultedAt_of_raised hl hs hp hr⟩

/-- A µop that waits and finds BUSY low at once completes, having used that one sample. -/
theorem answered_progress {P : Params} {u : Uop} {s : State} (hP : 1 ≤ P.busyMaxPolls) (hu : u.waits = true)
    (h0 : upcomingBusy s 0 = false) :
    ∃ t, perform P u s = .done t ∧ Progress P [u] s (advance t) ∧
      ∀ i, upcomingBusy (advance t) i = upcomingBusy s (1 + i) := by
  have first : ∀ log, waitBusy P log s = .done (sampleBusy (polled log 0 { s with pollcnt := 0 })) := fun log =>
    pollLoop_done hP (by simp) ((upcomingBusy_congr rfl rfl 0).trans h0)
  have used : ∀ log i, upcomingBusy (sampleBusy (polled log 0 { s with pollcnt := 0 })) i = upcomingBusy s (1 + i) :=
    fun log i => by rw [upcomingBusy_sampleBusy, polled_zero]; exact upcomingBusy_congr rfl rfl _
  cases u with
  | wait =>
    exact ⟨_, first false, (waited_progress hP h0).1, fun i => (upcomingBusy_congr rfl rfl i).trans (used false i)⟩
  | cmd b =>
    refine ⟨_, by rw [perform, first true], command_progress b hP h0, fun i => ?_⟩
    exact (upcomingBusy_congr (by simp [sendCommand]) (by simp [sendCommand]) i).trans (used true i)
  | rst _ | dly _ | dat _ | burst _ | sh _ => simp [Uop.waits] at hu

/-- R292: a micro-program whose waits find BUSY low at once, up to one that never finds it low, stops there. -/
theorem runProgram_faults {P : Params} {pre post : List Uop} {u : Uop} {s : State} (hP : 1 ≤ P.busyMaxPolls)
    (hq : ∀ i, i < waitCount pre → upcomingBusy s i = false) (hu : u.waits = true)
    (hs : ∀ i, i < P.busyMaxPolls → upcomingBusy s (waitCount pre + i) = true) :
    ∃ t, Progress P pre s t ∧ Raised P u t (runProgram P (pre ++ u :: post) s) := by
  induction pre generalizing s with
  | nil =>
    have hs : StuckBusy P s := fun i hi => by simpa using hs i hi
    refine ⟨s, .refl P s, ?_⟩
    rw [List.nil_append, runProgram]
    rcases perform_cases P u s with ⟨t, ht, -⟩ | ⟨t, ht, hr⟩
    · cases u with
      | wait =>
        rcases waitBusy_cases P false s with ⟨k, hk, -, hlast, -⟩ | ⟨-, heq⟩
        · rw [hs k hk] at hlast; cases hlast
        · rw [perform, heq] at ht; cases ht
      | cmd b =>
        rcases waitBusy_cases P true s with ⟨k, hk, -, hlast, -⟩ | ⟨-, heq⟩
        · rw [hs k hk] at hlast; cases hlast
        · rw [perform, heq] at ht; cases ht
      | rst _ | dly _ | dat _ | burst _ | sh _ => simp [Uop.waits] at hu
    · rw [ht]; exact hr
  | cons v pre ih =>
    obtain ⟨t, ht, hp, hsame⟩ : ∃ t, perform P v s = .done t ∧ Progress P [v] s (advance t) ∧
        ∀ i, upcomingBusy (advance t) i = upcomingBusy s (waitCount [v] + i) := by
      by_cases hv : v.waits = true
      · obtain ⟨t, ht, hp, hi⟩ := answered_progress hP hv (hq 0 (by simp [waitCount, hv]))
        exact ⟨t, ht, hp, by simpa [waitCount, hv] using hi⟩
      · simp only [Bool.not_eq_true] at hv
        obtain ⟨t, ht, hp⟩ := quiet_progress P v s hv
        obtain ⟨k, hk, hi⟩ := hp.samples
        obtain rfl : k = 0 := by simpa [waitCount, hv] using hk
        exact ⟨t, ht, hp, by simpa [waitCount, hv] using hi⟩
    have hc : waitCount (v :: pre) = waitCount [v] + waitCount pre := by
      rw [← List.singleton_append, waitCount, List.countP_append]; rfl
    obtain ⟨r, hr, hraised⟩ := ih (s := advance t)
      (fun i hi => by rw [hsame]; exact hq _ (by omega))
      (fun i hi => by rw [hsame, ← Nat.add_assoc, ← hc]; exact hs i hi)
    refine ⟨r, hp.trans hr, ?_⟩
    rw [List.cons_append, runProgram, ht]
    exact hraised

/-- R292: a link operation whose waits find BUSY low at once, up to one that never finds it low, stops there. -/
theorem exec_faults {i : Instr} {s : State} {pre post : List Uop} {u : Uop} (hl : isLink i = true)
    (hw : i.wellFormed = true) (ha : s.active = false) (hf : s.fault = false)
    (he : expand Config.params (latch i s) = pre ++ u :: post)
    (hq : ∀ k, k < waitCount pre → upcomingBusy s k = false) (hu : u.waits = true)
    (hs : ∀ k, k < Config.params.busyMaxPolls → upcomingBusy s (waitCount pre + k) = true) :
    ∃ r t, exec i s = .next r ∧ FaultedAt i pre.length (linkEvents pre) (shadowsAfter pre s.shadows) s r ∧
      Progress Config.params pre (startProgram (latch i s)) t ∧ Raised Config.params u t r := by
  have same : ∀ k, upcomingBusy (startProgram (latch i s)) k = upcomingBusy s k :=
    upcomingBusy_congr (by simp) (by simp)
  obtain ⟨t, hp, hr⟩ := runProgram_faults (post := post) (s := startProgram (latch i s)) params_wf.polls
    (fun k hk => (same k).trans (hq k hk)) hu fun k hk => (same _).trans (hs k hk)
  refine ⟨_, t, ?_, faultedAt_of_raised hl he hp hr, hp, hr⟩
  rw [exec_eq, execUnder_link _ hl, linkOp, accept_through ha hw fun _ => hf, he]

/-- R291, R292: with BUSY stuck a link operation stops at its first µop that waits. -/
theorem exec_stuck {i : Instr} {s : State} {pre post : List Uop} {u : Uop} (hl : isLink i = true)
    (hw : i.wellFormed = true) (ha : s.active = false) (hf : s.fault = false)
    (he : expand Config.params (latch i s) = pre ++ u :: post) (hq : ∀ v ∈ pre, v.waits = false)
    (hu : u.waits = true) (hs : StuckBusy Config.params s) :
    ∃ r t, exec i s = .next r ∧ FaultedAt i pre.length (linkEvents pre) (shadowsAfter pre s.shadows) s r ∧
      Progress Config.params pre (startProgram (latch i s)) t ∧ Raised Config.params u t r := by
  have h0 : waitCount pre = 0 := List.countP_eq_zero.2 fun v hv => by simp [hq v hv]
  exact exec_faults hl hw ha hf he (by simp [h0]) hu fun k hk => by rw [h0, Nat.zero_add]; exact hs k hk

end Sys2Proof.Machine
end

