-- ==== Sys2Proof/Laws/Memory.lean ====
section
/-! SUPPORT. The framebuffer's Bytes: a read after a write, the canonical form and that every memory
operation keeps it, and that equal reads make equal memories. -/

namespace Sys2Proof.Machine

theorem readByte_entry (i j : Nat) (v : Byte) (m : List Host.Cell) :
    readByte (entry i v m) j = if i = j ∧ v ≠ unlisted then v else readByte m j := by
  unfold entry
  split <;> simp_all [readByte]

/-- In a canonical list that starts above `i`, address `i` is not listed. -/
theorem readByte_below {m : List Host.Cell} {i : Nat} (h : ∀ c ∈ m, i < c.1) : readByte m i = unlisted := by
  induction m with
  | nil => rfl
  | cons c m ih =>
    have hc := h c (by simp)
    simp only [readByte]
    rw [if_neg (by omega)]
    exact ih fun d hd => h d (by simp [hd])

theorem Memory.wf_tail {c : Host.Cell} {m : List Host.Cell} (h : Memory.wf (c :: m)) : Memory.wf m :=
  ⟨(List.pairwise_cons.mp h.1).2, fun d hd => h.2 d (by simp [hd])⟩

theorem Memory.wf_above {c : Host.Cell} {m : List Host.Cell} (h : Memory.wf (c :: m)) :
    ∀ d ∈ m, c.1 < d.1 := (List.pairwise_cons.mp h.1).1

/-- A read after a write: the written value at the address, what was there before elsewhere. -/
theorem readByte_writeByte {m : List Host.Cell} (h : Memory.wf m) (i j : Nat) (v : Byte) :
    readByte (writeByte m i v) j = if i = j then v else readByte m j := by
  induction m with
  | nil =>
    rw [writeByte, readByte_entry]
    by_cases hij : i = j <;> by_cases hv : v = unlisted <;> simp [hij, hv, readByte]
  | cons c m ih =>
    obtain ⟨a, w⟩ := c
    have above := Memory.wf_above h
    simp only [writeByte]
    split
    · rename_i hia
      rw [readByte_entry]
      by_cases hij : i = j
      · subst hij
        by_cases hv : v = unlisted
        · subst hv
          simp only [ne_eq, not_true_eq_false, and_false, if_false, if_true]
          exact readByte_below fun d hd => by
            rcases List.mem_cons.mp hd with rfl | hd
            · exact hia
            · exact lt_trans hia (above d hd)
        · simp [hv]
      · simp [hij]
    · split
      · rename_i hia hia'
        subst hia'
        rw [readByte_entry]
        by_cases hij : i = j
        · subst hij
          by_cases hv : v = unlisted
          · subst hv
            simp only [ne_eq, not_true_eq_false, and_false, if_false, if_true]
            exact readByte_below above
          · simp [hv]
        · simp [hij, readByte]
      · rename_i hia hia'
        simp only [readByte]
        by_cases haj : a = j
        · subst haj
          simp [hia']
        · simp only [haj, if_false]
          exact ih (Memory.wf_tail h)

theorem mem_entry {i : Nat} {v : Byte} {m : List Host.Cell} {c : Host.Cell} (h : c ∈ entry i v m) :
    (c = (i, v) ∧ v ≠ unlisted) ∨ c ∈ m := by
  unfold entry at h
  split at h
  · exact .inr h
  · rcases List.mem_cons.mp h with h | h
    · exact .inl ⟨h, by assumption⟩
    · exact .inr h

theorem mem_writeByte {m : List Host.Cell} {i : Nat} {v : Byte} {c : Host.Cell} (h : c ∈ writeByte m i v) :
    (c = (i, v) ∧ v ≠ unlisted) ∨ c ∈ m := by
  induction m with
  | nil => exact mem_entry h
  | cons d m ih =>
    obtain ⟨a, w⟩ := d
    simp only [writeByte] at h
    split at h
    · exact mem_entry h
    · split at h
      · exact (mem_entry h).imp_right fun hm => List.mem_cons_of_mem _ hm
      · rcases List.mem_cons.mp h with rfl | h
        · exact .inr (by simp)
        · exact (ih h).imp_right fun hm => List.mem_cons_of_mem _ hm

theorem entry_wf {i : Nat} {v : Byte} {m : List Host.Cell} (hm : Memory.wf m) (hi : i < 4000)
    (above : ∀ c ∈ m, i < c.1) : Memory.wf (entry i v m) := by
  unfold entry
  split
  · exact hm
  · refine ⟨List.pairwise_cons.mpr ⟨above, hm.1⟩, fun c hc => ?_⟩
    rcases List.mem_cons.mp hc with rfl | hc
    · exact ⟨hi, by assumption⟩
    · exact hm.2 c hc

/-- A write inside the framebuffer keeps the canonical form. -/
theorem writeByte_wf {m : List Host.Cell} (h : Memory.wf m) {i : Nat} (hi : i < 4000) (v : Byte) :
    Memory.wf (writeByte m i v) := by
  induction m with
  | nil => exact entry_wf h hi (by simp)
  | cons c m ih =>
    obtain ⟨a, w⟩ := c
    have above := Memory.wf_above h
    have ht := Memory.wf_tail h
    simp only [writeByte]
    split
    · rename_i hia
      refine entry_wf h hi fun d hd => ?_
      rcases List.mem_cons.mp hd with rfl | hd
      · exact hia
      · exact lt_trans hia (above d hd)
    · split
      · rename_i hia
        exact entry_wf ht hi (by rw [hia]; exact above)
      · refine ⟨List.pairwise_cons.mpr ⟨fun d hd => ?_, (ih ht).1⟩, fun d hd => ?_⟩
        · rcases mem_writeByte hd with ⟨rfl, -⟩ | hd
          · simp only; omega
          · exact above d hd
        · rcases List.mem_cons.mp hd with rfl | hd
          · exact h.2 _ (by simp)
          · exact (ih ht).2 d hd

/-- R46: the framebuffer of a reset block is canonical. -/
theorem nil_wf : Memory.wf [] := ⟨List.Pairwise.nil, by simp⟩

theorem readByte_map (l : List Nat) (v : Byte) (j : Nat) :
    readByte (l.map fun i => (i, v)) j = if j ∈ l then v else unlisted := by
  induction l with
  | nil => simp [readByte]
  | cons a l ih =>
    simp only [List.map_cons, readByte, ih, List.mem_cons]
    by_cases h : a = j
    · simp [h]
    · simp [h, Ne.symm h]

/-- R200: after a fill every Byte of the framebuffer holds the value, and no other address is listed. -/
theorem readByte_fillBytes (v : Byte) (j : Nat) :
    readByte (fillBytes v) j = if j < 4000 then v else unlisted := by
  unfold fillBytes
  split
  · rename_i h; simp [readByte, h]
  · rw [readByte_map]; simp

/-- A fill is in canonical form. -/
theorem fillBytes_wf (v : Byte) : Memory.wf (fillBytes v) := by
  unfold fillBytes
  split
  · exact nil_wf
  · rename_i hv
    refine ⟨List.pairwise_map.mpr ?_, fun c hc => ?_⟩
    · exact List.pairwise_lt_range
    · obtain ⟨i, hi, rfl⟩ := List.mem_map.mp hc
      exact ⟨List.mem_range.mp hi, hv⟩

/-- R61: an in-range pixel has an in-range index. -/
theorem pixelIndex_lt {px py : Nat} (hx : px < 128) (hy : py < 250) : pixelIndex px py < 4000 := by
  unfold pixelIndex; omega

/-- R61, R62: two in-range pixels that share a Byte and a bit are one pixel. -/
theorem pixel_unique {px py qx qy : Nat} (hx : px < 128) (hqx : qx < 128)
    (hi : pixelIndex px py = pixelIndex qx qy) (hb : px % 8 = qx % 8) : px = qx ∧ py = qy := by
  unfold pixelIndex at hi; omega

/-- R63: a pixel write keeps the canonical form. -/
theorem fbSet_wf {m : List Host.Cell} (h : Memory.wf m) {px py : Nat} (hx : px < 128) (hy : py < 250)
    (c : Bool) : Memory.wf (fbSet m px py c) := writeByte_wf h (pixelIndex_lt hx hy) _

/-- R63: the Bytes after a pixel write. -/
theorem readByte_fbSet {m : List Host.Cell} (h : Memory.wf m) (px py : Nat) (c : Bool) (j : Nat) :
    readByte (fbSet m px py c) j =
      if pixelIndex px py = j then
        (if c then readByte m j ||| pixelMask px else readByte m j &&& ~~~pixelMask px)
      else readByte m j := by
  unfold fbSet
  simp only [readByte_writeByte h]
  split
  · rename_i hij; subst hij; rfl
  · rfl

/-- Equal reads make equal memories: the canonical form is unique. -/
theorem memory_ext {m n : List Host.Cell} (hm : Memory.wf m) (hn : Memory.wf n)
    (h : ∀ i, readByte m i = readByte n i) : m = n := by
  induction m generalizing n with
  | nil =>
    cases n with
    | nil => rfl
    | cons d n =>
      have := h d.1
      simp [readByte] at this
      exact absurd this.symm (hn.2 d (by simp)).2
  | cons c m ih =>
    cases n with
    | nil =>
      have := h c.1
      simp [readByte] at this
      exact absurd this (hm.2 c (by simp)).2
    | cons d n =>
      have hc := (hm.2 c (by simp)).2
      have hd := (hn.2 d (by simp)).2
      have am := Memory.wf_above hm
      have an := Memory.wf_above hn
      have key : c.1 = d.1 := by
        rcases lt_trichotomy c.1 d.1 with hlt | heq | hgt
        · have := h c.1
          simp only [readByte, if_true] at this
          rw [if_neg (by omega), readByte_below fun e he => lt_trans hlt (an e he)] at this
          exact absurd this hc
        · exact heq
        · have := h d.1
          simp only [readByte, if_true] at this
          rw [if_neg (by omega), readByte_below fun e he => lt_trans hgt (am e he)] at this
          exact absurd this.symm hd
      have hv : c.2 = d.2 := by simpa [readByte, key] using h d.1
      have hcd : c = d := Prod.ext key hv
      subst hcd
      congr 1
      refine ih (Memory.wf_tail hm) (Memory.wf_tail hn) fun i => ?_
      by_cases hi : c.1 = i
      · subst hi
        rw [readByte_below am, readByte_below an]
      · simpa [readByte, hi] using h i

end Sys2Proof.Machine
end

