-- ==== Sys2Proof/Laws/Framebuffer.lean ====
section
/-! SUPPORT. Everything an operation that does not drive the link can do (R200 to R220, R45): nothing while
another runs, ILL for an illegal packet, else its latches and its own few fields. -/

namespace Sys2Proof.Machine

/-- The state of a framebuffer operation the block accepted: latches, and at most FB, ROT and the result. -/
def LocalEffect (i : Instr) (s t : State) : Prop :=
  t = { latch i s with fb := t.fb, rot := t.rot, rdata := t.rdata, roob := t.roob } ∧
    ((∀ c, i ≠ .fill c) → (∀ x y c, i ≠ .pixel x y c) → t.fb = s.fb) ∧
    ((∀ r, i ≠ .setrot r) → t.rot = s.rot) ∧
    ((∀ x y, i ≠ .getpix x y) → t.rdata = s.rdata ∧ t.roob = s.roob) ∧
    (Memory.wf s.fb → Memory.wf t.fb)

/-- The five families of instructions: link operations, panel commands, the four framebuffer operations, CLRF. -/
theorem instr_kinds (i : Instr) : isLink i = true ∨ isPanel i = true ∨ (∃ c, i = .fill c) ∨
    (∃ x y c, i = .pixel x y c) ∨ (∃ x y, i = .getpix x y) ∨ (∃ r, i = .setrot r) ∨ i = .clrf := by
  cases i <;> simp [isLink, isPanel]

theorem drawPixel_effect (P : Params) (x y : U16) (c : Byte) (s : State) :
    LocalEffect (.pixel x y c) s (drawPixel P x y (colourBit c) (latch (.pixel x y c) s)) := by
  unfold drawPixel
  simp only []
  split
  · rename_i hin
    simp only [inBounds, decide_eq_true_eq] at hin
    exact ⟨rfl, fun _ h => absurd rfl (h x y c), fun _ => rfl, fun _ => ⟨rfl, rfl⟩,
      fun h => fbSet_wf h (by omega) (by omega) _⟩
  · exact ⟨rfl, fun _ h => absurd rfl (h x y c), fun _ => rfl, fun _ => ⟨rfl, rfl⟩, id⟩

theorem readPixel_effect (P : Params) (x y : U16) (s : State) :
    LocalEffect (.getpix x y) s (readPixel P x y (latch (.getpix x y) s)) := by
  unfold readPixel
  simp only []
  split <;> exact ⟨rfl, fun _ _ => rfl, fun _ => rfl, fun h => absurd rfl (h x y), id⟩

/-- Everything a framebuffer operation or CLRF can do. -/
theorem local_cases (P : Params) {i : Instr} (hl : isLink i = false) (hp : isPanel i = false) (s : State) :
    (s.active = true ∧ execUnder P i s = s) ∨
    (s.active = false ∧ i.wellFormed = false ∧ execUnder P i s = rejectIllegal s) ∨
    (s.active = false ∧ i.wellFormed = true ∧ i ≠ .clrf ∧ LocalEffect i s (execUnder P i s)) ∨
    (s.active = false ∧ i = .clrf ∧ execUnder P i s = clearFault (latch i s)) := by
  have go : ∀ body, (i ≠ .clrf → LocalEffect i s (body (latch i s))) →
      (i = .clrf → body (latch i s) = clearFault (latch i s)) → execUnder P i s = accept i body s →
      (s.active = true ∧ execUnder P i s = s) ∨
      (s.active = false ∧ i.wellFormed = false ∧ execUnder P i s = rejectIllegal s) ∨
      (s.active = false ∧ i.wellFormed = true ∧ i ≠ .clrf ∧ LocalEffect i s (execUnder P i s)) ∨
      (s.active = false ∧ i = .clrf ∧ execUnder P i s = clearFault (latch i s)) := fun body hb hc he => by
    rw [he]
    rcases accept_cases i body s with ⟨a, e⟩ | ⟨a, w, e⟩ | ⟨_, _, l, _, _⟩ | ⟨a, w, _, e⟩
    · exact .inl ⟨a, e⟩
    · exact .inr (.inl ⟨a, w, e⟩)
    · rw [hl] at l; exact absurd l (by simp)
    · rw [e]
      by_cases h : i = .clrf
      · exact .inr (.inr (.inr ⟨a, h, hc h⟩))
      · exact .inr (.inr (.inl ⟨a, w, h, hb h⟩))
  rcases instr_kinds i with h | h | ⟨c, rfl⟩ | ⟨x, y, c, rfl⟩ | ⟨x, y, rfl⟩ | ⟨r, rfl⟩ | rfl
  · rw [hl] at h; exact absurd h (by simp)
  · rw [hp] at h; exact absurd h (by simp)
  · exact go (fun t => { t with fb := fillBytes (rep8 (colourBit c)) })
      (fun _ => ⟨rfl, fun h => absurd rfl (h c), fun _ => rfl, fun _ => ⟨rfl, rfl⟩,
      fun _ => fillBytes_wf _⟩) (by simp) rfl
  · exact go _ (fun _ => drawPixel_effect P x y c s) (by simp) rfl
  · exact go _ (fun _ => readPixel_effect P x y s) (by simp) rfl
  · exact go (fun t => { t with rot := rotationBits r })
      (fun _ => ⟨rfl, fun _ _ => rfl, fun h => absurd rfl (h r), fun _ => ⟨rfl, rfl⟩, id⟩) (by simp) rfl
  · exact go _ (fun h => absurd rfl h) (fun _ => rfl) rfl

/-- R95, R124: a panel command is the µop `CMD` of its Byte. -/
theorem execUnder_panel (P : Params) {i : Instr} (h : isPanel i = true) (s : State) :
    execUnder P i s = panelCommand P (opcodeOf i) s := by
  cases i <;> first | rfl | simp [isPanel] at h

end Sys2Proof.Machine
end

