-- ==== Sys2Proof/Machine/HostPrograms.lean ====
section
/-! DEFINITION. The host-software drawing and text layers of `spec/46_host_primitives.md` (R260 to R274),
outside the block (R5): procedures that draw pixels, and the PIXEL operations that carry them out. No part of
the machine uses this file; it stands here so that what the spec says of these layers is not lost. The
Bresenham loop, the line compositions and the clip test are general knowledge (GK9): log entry 9. What no source
gives (U24) is a field of `HostParams`. -/

namespace Sys2Proof.Machine.HostProgram

/-- R260: "draws (x, y, c)". -/
abbrev Draw := Int × Int × Bool

/-- The parameters of the host model (R262, R265, R272, R273, U24). -/
structure HostParams where
  /-- `FONT` (R273): the five column Bytes of a character. -/
  font : Char → Fin 5 → Byte
  /-- `BMP_PACKING` (R265): the Byte and the bit that hold pixel (i, j) of a w × h source; arguments w, h, i, j. -/
  bmpPacking : Nat → Nat → Nat → Nat → Nat × Fin 8
  /-- `BMP_SET_COLOUR` (R265): the colour a set source bit stands for. -/
  bmpSetColour : Bool
  /-- `CANVAS_W` (R272), at the current rotation. -/
  canvasW : Int
  /-- `CANVAS_H` (R272), at the current rotation. -/
  canvasH : Int
  /-- What `FastVLine(x, y, h, c)` draws for h < 1 ("not in any source", R262). -/
  shortVLine : Int → Int → Int → Bool → List Draw
  /-- What `FastHLine(x, y, w, c)` draws for w < 1 ("not in any source", R262). -/
  shortHLine : Int → Int → Int → Bool → List Draw

/-- A host coordinate as an I16 operand. DESIGN CHOICE (log entry 22): the spec gives PIXEL I16 operands (R201)
and says nothing of a host coordinate beyond them; it is presented as the nearest one there is, which the default
transform maps outside the framebuffer, where PIXEL clips it. -/
def coordinate (v : Int) : U16 := BitVec.ofInt 16 (max (-32768) (min 32767 v))

/-- R260: a draw is the operation `PIXEL x, y, c`. -/
def Draw.toInstr (d : Draw) : Instr :=
  .pixel (coordinate d.1) (coordinate d.2.1) (if d.2.2 then 1 else 0)

/-- R261: the loop of the Bresenham line, one pixel a round, `n` rounds. -/
def lineLoop (steep : Bool) (dx dy ystep : Int) (c : Bool) : Nat → Int → Int → Int → List Draw
  | 0, _, _, _ => []
  | n + 1, x, y, err =>
    let here : Draw := if steep then (y, x, c) else (x, y, c)
    if err - dy < 0 then here :: lineLoop steep dx dy ystep c n (x + 1) (y + ystep) (err - dy + dx)
    else here :: lineLoop steep dx dy ystep c n (x + 1) y (err - dy)

/-- R261: the part of `Line` after the steep-axis swap. -/
def lineAlong (steep : Bool) (x0 y0 x1 y1 : Int) (c : Bool) : List Draw :=
  let (ax, ay, bx, byy) := if x1 < x0 then (x1, y1, x0, y0) else (x0, y0, x1, y1)
  let dx := bx - ax
  lineLoop steep dx (byy - ay).natAbs (if ay < byy then 1 else -1) c (dx.toNat + 1) ax ay (dx / 2)

/-- R261: `Line(x0, y0, x1, y1, c)`. -/
def line (x0 y0 x1 y1 : Int) (c : Bool) : List Draw :=
  if (x1 - x0).natAbs < (y1 - y0).natAbs then lineAlong true y0 x0 y1 x1 c else lineAlong false x0 y0 x1 y1 c

/-- R262: `FastVLine`; for `h < 1` a parameter. -/
def fastVLine (P : HostParams) (x y h : Int) (c : Bool) : List Draw :=
  if 1 ≤ h then line x y x (y + h - 1) c else P.shortVLine x y h c

/-- R262: `FastHLine`; for `w < 1` a parameter. -/
def fastHLine (P : HostParams) (x y w : Int) (c : Bool) : List Draw :=
  if 1 ≤ w then line x y (x + w - 1) y c else P.shortHLine x y w c

/-- R263: "FillRect = w adjacent vertical lines"; "for w < 1 it draws nothing". -/
def fillRect (P : HostParams) (x y w h : Int) (c : Bool) : List Draw :=
  (List.range w.toNat).flatMap fun i => fastVLine P (x + i) y h c

/-- R264: the outline. -/
def drawRect (P : HostParams) (x y w h : Int) (c : Bool) : List Draw :=
  fastHLine P x y w c ++ fastHLine P x (y + h - 1) w c ++ fastVLine P x y h c ++ fastVLine P (x + w - 1) y h c

/-- R265: the colour of pixel (i, j) of a packed w × h source. -/
def bitmapColour (P : HostParams) (bitmap : Nat → Byte) (w h i j : Nat) : Bool :=
  let (k, b) := P.bmpPacking w h i j
  if (bitmap k).getLsbD b then P.bmpSetColour else !P.bmpSetColour

/-- R265: `DrawBitmap(bitmap, x, y, w, h, background)` "blits a packed 1-bpp source; pixels equal to background
are transparent". DESIGN CHOICE (log entry 9): the pixels are drawn row by row, each row by rising `i`; R265 names
no order. -/
def drawBitmap (P : HostParams) (bitmap : Nat → Byte) (x y : Int) (w h : Nat) (background : Bool) : List Draw :=
  (List.range h).flatMap fun (j : Nat) => (List.range w).filterMap fun (i : Nat) =>
    let s := bitmapColour P bitmap w h i j
    if s = background then none else some (x + i, y + j, s)

/-- R270: the text state, "an explicit state struct". -/
structure Text where
  cx : Int
  cy : Int
  fg : Bool
  bg : Bool
  sx : Nat
  sy : Nat
  deriving DecidableEq, Repr

namespace Text

/-- R270: "independent X/Y scale factors (≥1)". -/
abbrev Wf (t : Text) : Prop := 1 ≤ t.sx ∧ 1 ≤ t.sy

/-! R270: "mutated only by explicit setters". A scale factor below 1 is not the host's to give: the two setters
that take one keep `Wf` when theirs is at least 1 (`Laws/HostPrograms.lean`). -/

def setCursor (x y : Int) (t : Text) : Text := { t with cx := x, cy := y }
def setForeground (c : Bool) (t : Text) : Text := { t with fg := c }
def setBackground (c : Bool) (t : Text) : Text := { t with bg := c }
def setScaleX (n : Nat) (t : Text) : Text := { t with sx := n }
def setScaleY (n : Nat) (t : Text) : Text := { t with sy := n }

end Text

/-- R272: one cell of a glyph, an `sx × sy` block when scaled, else a single pixel. -/
def block (P : HostParams) (t : Text) (x y : Int) (i j : Nat) (c : Bool) : List Draw :=
  if t.sx = 1 ∧ t.sy = 1 then [(x + i, y + j, c)] else fillRect P (x + i * t.sx) (y + j * t.sy) t.sx t.sy c

/-- R272: `DrawChar`, with the colours and scales of the text state. -/
def drawChar (P : HostParams) (t : Text) (x y : Int) (ch : Char) : List Draw :=
  if P.canvasW ≤ x ∨ P.canvasH ≤ y ∨ x + 6 * t.sx - 1 < 0 ∨ y + 8 * t.sy - 1 < 0 then []
  else
    ((List.finRange 5).flatMap fun i => (List.range 8).flatMap fun j =>
      if (P.font ch i).getLsbD j then block P t x y i j t.fg
      else if t.bg = t.fg then [] else block P t x y i j t.bg)
    ++ (if t.bg = t.fg then [] else fillRect P (x + 5 * t.sx) y t.sx (8 * t.sy) t.bg)

/-- R271: `Write(ch)`: the text state afterwards and what is drawn. -/
def write (P : HostParams) (t : Text) (ch : Char) : Text × List Draw :=
  if ch = '\n' then (t.setCursor 0 (t.cy + 8 * t.sy), [])
  else if ch = '\r' then (t, [])
  else (t.setCursor (t.cx + 6 * t.sx) t.cy, drawChar P t t.cx t.cy ch)

/-- R274: `Write(string)`, character by character in order. -/
def writeString (P : HostParams) (t : Text) : List Char → Text × List Draw
  | [] => (t, [])
  | ch :: cs =>
    let (t1, d1) := write P t ch
    let (t2, d2) := writeString P t1 cs
    (t2, d1 ++ d2)

end Sys2Proof.Machine.HostProgram
end

