-- ==== Sys2Proof/Laws/HostPrograms.lean ====
section
/-! SUPPORT. The host programs: the text state keeps its scale factors at least 1 (R270), and a coordinate beyond
I16 is clipped under the default transform (log entry 22). -/

namespace Sys2Proof.Machine.HostProgram

namespace Text

variable {t : Text}

@[simp] theorem setCursor_wf (x y : Int) : (t.setCursor x y).Wf ↔ t.Wf := Iff.rfl

@[simp] theorem setForeground_wf (c : Bool) : (t.setForeground c).Wf ↔ t.Wf := Iff.rfl

@[simp] theorem setBackground_wf (c : Bool) : (t.setBackground c).Wf ↔ t.Wf := Iff.rfl

theorem setScaleX_wf (h : t.Wf) {n : Nat} (hn : 1 ≤ n) : (t.setScaleX n).Wf := ⟨hn, h.2⟩

theorem setScaleY_wf (h : t.Wf) {n : Nat} (hn : 1 ≤ n) : (t.setScaleY n).Wf := ⟨h.1, hn⟩

end Text

/-- R270, R271: writing a character moves the cursor and nothing else of the text state. -/
theorem write_text (P : HostParams) (t : Text) (ch : Char) : ∃ x y, (write P t ch).1 = t.setCursor x y := by
  unfold write
  split
  · exact ⟨_, _, rfl⟩
  · split
    · exact ⟨t.cx, t.cy, rfl⟩
    · exact ⟨_, _, rfl⟩

/-- R270: text output keeps the scale factors at least 1. -/
theorem writeString_wf (P : HostParams) {t : Text} (h : t.Wf) (cs : List Char) : (writeString P t cs).1.Wf := by
  induction cs generalizing t with
  | nil => exact h
  | cons ch cs ih =>
    obtain ⟨x, y, hw⟩ := write_text P t ch
    have hk : (write P t ch).1.Wf := by rw [hw]; simpa using h
    exact ih hk

/-- A coordinate is a 16-bit operand's own value where it has one. -/
theorem coordinate_toInt (v : Int) : (coordinate v).toInt = max (-32768) (min 32767 v) := by
  unfold coordinate
  exact BitVec.toInt_ofInt_eq_self (by decide) (by omega) (by omega)

/-- A draw with a coordinate beyond I16 is clipped under the default transform. -/
theorem coordinate_clipped (r : BitVec 2) (x y : Int) (h : ¬ (-32768 ≤ x ∧ x ≤ 32767 ∧ -32768 ≤ y ∧ y ≤ 32767)) :
    inBounds (defaultRotation r (coordinate x).toInt (coordinate y).toInt) = false := by
  rw [coordinate_toInt, coordinate_toInt]
  unfold inBounds defaultRotation
  split <;> simp only [decide_eq_false_iff_not] <;> omega

end Sys2Proof.Machine.HostProgram
end

