-- ==== Sys2Proof/Laws/PerInstr.lean ====
section
/-! SUPPORT. Statements made of each instruction as syntax, one lemma per constructor. `EncodedLength`: the
encoder writes as many Bytes as R91's format fixes, one for a panel command (R95). -/

namespace Sys2Proof.Laws.EncodedLength

open Sys2Proof.Machine

/-- R91, R95: the length of an encoded well-formed instruction. -/
def Statement (i : Instr) : Prop :=
  i.wellFormed = true →
    (encode i).length = if isPanel i then 1 else formatLength (opcodeOf i) (operandBytes i)

theorem reset : Statement .reset := fun _ => rfl
theorem wcmd (b : Byte) : Statement (.wcmd b) := fun _ => rfl
theorem wdat (b : Byte) : Statement (.wdat b) := fun _ => rfl
theorem wdatn (n : U16) (ds : List Byte) : Statement (.wdatn n ds) := by
  intro h
  have h : ds.length = n.toNat := by simpa [Instr.wellFormed] using h
  have := lo_toNat n
  have := hi_toNat n
  simp [encode, operandBytes, word16, isPanel, formatLength, opcodeOf, h]
  omega
theorem waitb : Statement .waitb := fun _ => rfl
theorem initdisp (em : Byte) : Statement (.initdisp em) := fun _ => rfl
theorem setem (em : Byte) : Statement (.setem em) := fun _ => rfl
theorem initfull (em : Byte) : Statement (.initfull em) := fun _ => rfl
theorem initpart (em : Byte) : Statement (.initpart em) := fun _ => rfl
theorem updfull : Statement .updfull := fun _ => rfl
theorem updpart : Statement .updpart := fun _ => rfl
theorem pwron : Statement .pwron := fun _ => rfl
theorem pwroff : Statement .pwroff := fun _ => rfl
theorem init : Statement .init := fun _ => rfl
theorem update : Statement .update := fun _ => rfl
theorem updwin (x : U16) (y : U16) (w : U16) (h : U16) : Statement (.updwin x y w h) := fun _ => rfl
theorem erase : Statement .erase := fun _ => rfl
theorem fill (c : Byte) : Statement (.fill c) := fun _ => rfl
theorem pixel (x : U16) (y : U16) (c : Byte) : Statement (.pixel x y c) := fun _ => rfl
theorem getpix (x : U16) (y : U16) : Statement (.getpix x y) := fun _ => rfl
theorem setrot (r : Byte) : Statement (.setrot r) := fun _ => rfl
theorem clrf : Statement .clrf := fun _ => rfl
theorem pDriverOutput : Statement .pDriverOutput := fun _ => rfl
theorem pGateVoltage : Statement .pGateVoltage := fun _ => rfl
theorem pSourceVoltage : Statement .pSourceVoltage := fun _ => rfl
theorem pDataEntryMode : Statement .pDataEntryMode := fun _ => rfl
theorem pSwReset : Statement .pSwReset := fun _ => rfl
theorem pActivate : Statement .pActivate := fun _ => rfl
theorem pUpdateControl : Statement .pUpdateControl := fun _ => rfl
theorem pRamWriteCurrent : Statement .pRamWriteCurrent := fun _ => rfl
theorem pRamWritePrevious : Statement .pRamWritePrevious := fun _ => rfl
theorem pVcom : Statement .pVcom := fun _ => rfl
theorem pLut : Statement .pLut := fun _ => rfl
theorem pTimingA : Statement .pTimingA := fun _ => rfl
theorem pTimingB : Statement .pTimingB := fun _ => rfl
theorem pBorder : Statement .pBorder := fun _ => rfl
theorem pRamXWindow : Statement .pRamXWindow := fun _ => rfl
theorem pRamYWindow : Statement .pRamYWindow := fun _ => rfl
theorem pRamXCounter : Statement .pRamXCounter := fun _ => rfl
theorem pRamYCounter : Statement .pRamYCounter := fun _ => rfl
theorem pAnalogBlock : Statement .pAnalogBlock := fun _ => rfl
theorem pDigitalBlock : Statement .pDigitalBlock := fun _ => rfl

end Sys2Proof.Laws.EncodedLength
end

