-- ==== Sys2Proof/Laws/Step.lean ====
section
/-! SUPPORT. Everything one step can do, said once; and what the decoder's answers are. -/

namespace Sys2Proof.Machine

/-! ### The decoder's answers -/

/-- R96: what `decodePanel` answers is a panel command with that opcode. -/
theorem decodePanel_some {b : Byte} {i : Instr} (h : decodePanel b = some i) : isPanel i = true ∧ opcodeOf i = b := by
  revert h
  have : ∀ b : Byte, ∀ j, decodePanel b = some j → isPanel j = true ∧ opcodeOf j = b := by decide +kernel
  exact this b i

/-- R93: what `decodePacket` answers is a legal host operation. -/
theorem decodePacket_some {bs : List Byte} {i : Instr} (h : decodePacket bs = some i) :
    isPanel i = false ∧ i.wellFormed = true := by
  cases bs with
  | nil => simp [decodePacket] at h
  | cons op body =>
    simp only [decodePacket, Option.filter_eq_some_iff] at h
    obtain ⟨hd, hw⟩ := h
    refine ⟨?_, hw⟩
    unfold decodeOperation operandsH0 operandsH1 operandsHN operandsH2W operandsH2W1 operandsH4W at hd
    split at hd <;> first
      | (cases hd; done)
      | (split at hd <;> first
          | (cases hd; done)
          | (cases hd; rfl)
          | (split at hd <;> cases hd; rfl))

/-! ### One µop -/

/-- R120: performing the µop at UPC completes it, or raises. -/
theorem performOne_cases (P : Params) (u : Uop) (s : State) :
    Progress P [u] s (performOne P u s) ∨ Raised P u s (performOne P u s) := by
  unfold performOne
  rcases perform_cases P u s with ⟨t, ht, hp⟩ | ⟨t, ht, hr⟩ <;> rw [ht]
  · exact .inl hp
  · exact .inr hr

/-- A panel command of a running micro-program is its µop. -/
theorem exec_panel {b : Byte} {i : Instr} {s : State} (h : decodePanel b = some i) (ha : s.active = true) :
    exec i s = .next (performOne Config.params (.cmd b) s) := by
  obtain ⟨hp, rfl⟩ := decodePanel_some h
  rw [exec_eq, execUnder_panel _ hp, panelCommand, if_pos ha]

/-- R121: a step of a running operation, whatever presents the current µop. -/
theorem stepRunning_eq {s : State} (ha : s.active = true) :
    stepRunning s = .next (match currentUop Config.params s with
      | none => finishProgram s
      | some u => performOne Config.params u s) := by
  unfold stepRunning
  cases hc : currentUop Config.params s with
  | none => rfl
  | some u =>
    cases u with
    | cmd b =>
      cases hd : decodePanel b with
      | none => simp [Uop.panel, hd]
      | some i => simp [Uop.panel, hd, exec_panel hd ha]
    | rst _ | dly _ | wait | dat _ | burst _ | sh _ => rfl

/-- The current µop does not depend on what the host presents. -/
theorem currentUop_inbox (P : Params) (s : State) (r : List HostInput) :
    currentUop P { s with inbox := r } = currentUop P s := rfl

/-! ### One step -/

/-- R121: what a step of a running operation leaves, from the state `u` it performs the µop in. -/
def RunsOn (s u t : State) : Prop :=
  (currentUop Config.params s = none ∧ t = finishProgram u) ∨
    ∃ o, currentUop Config.params s = some o ∧ t = performOne Config.params o u

/-- R92: what a step leaves of the idle block `u` presented the packet `bs`. -/
def Takes (bs : List Byte) (u t : State) : Prop :=
  (decodePacket bs = none ∧ t = rejectIllegal u) ∨
    ∃ i, decodePacket bs = some i ∧
      (t = execUnder Config.params i u ∨ (isLink i = true ∧ t = accept i startProgram u))

theorem takes_packet {bs : List Byte} {u t : State} (h : stepPacket bs u = .next t) : Takes bs u t := by
  unfold stepPacket at h
  split at h
  · rename_i hd; injection h with h; exact .inl ⟨hd, h.symm⟩
  · rename_i i hd; rw [exec_eq] at h; injection h with h; exact .inr ⟨i, hd, .inl h.symm⟩

theorem takes_stepwise {bs : List Byte} {u t : State} (h : stepPacketStepwise bs u = .next t) : Takes bs u t := by
  unfold stepPacketStepwise at h
  split at h
  · rename_i hd; injection h with h; exact .inl ⟨hd, h.symm⟩
  · rename_i i hd
    split at h
    · rename_i hl; injection h with h; exact .inr ⟨i, hd, .inr ⟨hl, h.symm⟩⟩
    · rw [exec_eq] at h; injection h with h; exact .inr ⟨i, hd, .inl h.symm⟩

/-- R45, R92, R121, R320, R321: everything one step can do. -/
theorem step_cases {s t : State} (h : step s = .next t) :
    (∃ r, s.inbox = .blockReset :: r ∧ t = blockReset { s with inbox := r }) ∨
    (s.active = true ∧ ∃ r, (r = s.inbox ∨ s.inbox = .nothing :: r) ∧ RunsOn s { s with inbox := r } t) ∨
    (s.active = false ∧ s.inbox = [] ∧ t = s) ∨
    (s.active = false ∧ ∃ r, s.inbox = .nothing :: r ∧ t = { s with inbox := r }) ∨
    (s.active = false ∧ ∃ bs r, (s.inbox = .packet bs :: r ∨ s.inbox = .packetStepwise bs :: r) ∧
      Takes bs { s with inbox := r } t) := by
  have runs : ∀ r, s.active = true → stepRunning { s with inbox := r } = .next t →
      RunsOn s { s with inbox := r } t := fun r ha h => by
    rw [stepRunning_eq (by exact ha)] at h
    injection h with h
    rw [currentUop_inbox] at h
    cases hc : currentUop Config.params s with
    | none => rw [hc] at h; exact .inl ⟨hc, h.symm⟩
    | some o => rw [hc] at h; exact .inr ⟨o, hc, h.symm⟩
  unfold step at h
  split at h
  · rename_i hi; injection h with h; exact .inl ⟨_, hi, h.symm⟩
  · rename_i hi ha; exact .inr (.inl ⟨ha, _, .inr hi, runs _ ha h⟩)
  · rename_i hi ha; exact .inr (.inl ⟨ha, _, .inl rfl, runs _ ha h⟩)
  · rename_i hi ha; exact .inr (.inl ⟨ha, _, .inl rfl, runs _ ha h⟩)
  · rename_i hi ha; exact .inr (.inl ⟨ha, _, .inl rfl, runs _ ha h⟩)
  · rename_i hi ha; injection h with h; exact .inr (.inr (.inl ⟨ha, hi, h.symm⟩))
  · rename_i hi ha; injection h with h; exact .inr (.inr (.inr (.inl ⟨ha, _, hi, h.symm⟩)))
  · rename_i hi ha; exact .inr (.inr (.inr (.inr ⟨ha, _, _, .inl hi, takes_packet h⟩)))
  · rename_i hi ha; exact .inr (.inr (.inr (.inr ⟨ha, _, _, .inr hi, takes_stepwise h⟩)))

/-- R121, R297: the two ends of a link operation accepted with no fault pending, its micro-program performed whole
or up to a µop that raised; and the other answers of acceptance. -/
theorem execUnder_link_cases {i : Instr} {s : State} (hl : isLink i = true) :
    (s.active = true ∧ execUnder Config.params i s = s) ∨
    (s.active = false ∧ i.wellFormed = false ∧ execUnder Config.params i s = rejectIllegal s) ∨
    (s.active = false ∧ s.fault = true ∧ execUnder Config.params i s = refuseLink (latch i s)) ∨
    (s.active = false ∧ s.fault = false ∧ i.wellFormed = true ∧
      ((∃ t, execUnder Config.params i s = finishProgram t ∧
        Progress Config.params (expand Config.params (latch i s)) (startProgram (latch i s)) t) ∨
      (∃ pre u post t, expand Config.params (latch i s) = pre ++ u :: post ∧
        Progress Config.params pre (startProgram (latch i s)) t ∧
        Raised Config.params u t (execUnder Config.params i s)))) := by
  have he := execUnder_link Config.params hl s
  rw [linkOp] at he
  rcases accept_cases i (fun t => runProgram Config.params (expand Config.params (latch i s)) (startProgram t)) s with
    ⟨a, e⟩ | ⟨a, w, e⟩ | ⟨a, _, _, f, e⟩ | ⟨a, w, f, e⟩
  · exact .inl ⟨a, he.trans e⟩
  · exact .inr (.inl ⟨a, w, he.trans e⟩)
  · exact .inr (.inr (.inl ⟨a, f, he.trans e⟩))
  · refine .inr (.inr (.inr ⟨a, f hl, w, ?_⟩))
    rw [he, e]
    exact runProgram_cases Config.params _ _

end Sys2Proof.Machine
end

