-- ==== Sys2Proof/Machine/Assembler.lean ====
section
/-! DEFINITION. The assembler syntax of `spec/30_encoding.md` R105 and the pseudo-operations of R106: from text
to host operations. The block never sees text; a program is what a host presents, one packet after another.
Panel commands have no textual form (R105: "the mnemonic of rule R93"). What the notation accepts beyond R105's
sentences is log entry 15. -/

namespace Sys2Proof.Machine.Assembler

/-- R105: the two bases of a number. -/
def digit (base : Nat) (c : Char) : Option Nat :=
  let n := c.toNat
  let v := if 48 ≤ n ∧ n ≤ 57 then n - 48
    else if 65 ≤ n ∧ n ≤ 70 then n - 55
    else if 97 ≤ n ∧ n ≤ 102 then n - 87
    else base
  if v < base then some v else none

/-- A non-empty run of digits. -/
def digits (base : Nat) (cs : List Char) : Option Nat :=
  match cs with
  | [] => none
  | _ => cs.foldlM (fun v c => (digit base c).map fun d => v * base + d) 0

/-- R105: "Numbers are decimal, or hexadecimal with `0x`". -/
def natural : List Char → Option Nat
  | '0' :: 'x' :: cs => digits 16 cs
  | cs => digits 10 cs

/-- A number an unsigned operand of `2 ^ w` values can hold. -/
def unsigned (w : Nat) (cs : List Char) : Option (BitVec w) :=
  (natural cs).bind fun n => if n < 2 ^ w then some (BitVec.ofNat w n) else none

/-- R105: "a negative decimal is allowed for an I16 operand"; else its pattern as a number. -/
def int16 : List Char → Option U16
  | '-' :: cs => (digits 10 cs).bind fun n => if n ≤ 32768 then some (BitVec.ofInt 16 (-(n : Int))) else none
  | cs => unsigned 16 cs

/-- R105: "The colour operand may be written `WHITE` (0) or `BLACK` (1)". -/
def colour (cs : List Char) : Option Byte :=
  if cs = ['W', 'H', 'I', 'T', 'E'] then some 0
  else if cs = ['B', 'L', 'A', 'C', 'K'] then some 1
  else unsigned 8 cs

/-- Space, tab and carriage return. -/
def isBlank (c : Char) : Bool := c.toNat = 32 || c.toNat = 9 || c.toNat = 13

/-- A run of characters without the blanks around it. -/
def trim (cs : List Char) : List Char := ((cs.dropWhile isBlank).reverse.dropWhile isBlank).reverse

/-- The pieces of a text between separators. -/
def pieces (sep : Char) : List Char → List (List Char)
  | [] => [[]]
  | c :: cs =>
    if c = sep then [] :: pieces sep cs
    else match pieces sep cs with
      | p :: ps => (c :: p) :: ps
      | [] => [[c]]

/-- R105: the operands, "separated by commas". -/
def operands (cs : List Char) : List (List Char) :=
  match trim cs with
  | [] => []
  | t => (pieces ',' t).map trim

/-- Every operand a Byte. -/
def byteList (ops : List (List Char)) : Option (List Byte) := ops.mapM (unsigned 8)

/-- R93, R91, R105: the operation of a mnemonic and its operands in the order of the fields; R106: a
pseudo-operation is its expansion. DESIGN CHOICE (log entry 15), R106 writing both forms with `d0, ..., dk` and not
saying whether there may be no `d`: `WREG c` alone is `WCMD c`, and `WDATA` with no operand is refused. -/
def operation (mnemonic : String) (ops : List (List Char)) : Option (List Instr) :=
  match mnemonic, ops with
  | "RESET", [] => some [.reset]
  | "WCMD", [b] => do some [.wcmd (← unsigned 8 b)]
  | "WDAT", [b] => do some [.wdat (← unsigned 8 b)]
  | "WDATN", n :: ds => do some [.wdatn (← unsigned 16 n) (← byteList ds)]
  | "WAITB", [] => some [.waitb]
  | "INITDISP", [em] => do some [.initdisp (← unsigned 8 em)]
  | "SETEM", [em] => do some [.setem (← unsigned 8 em)]
  | "INITFULL", [em] => do some [.initfull (← unsigned 8 em)]
  | "INITPART", [em] => do some [.initpart (← unsigned 8 em)]
  | "UPDFULL", [] => some [.updfull]
  | "UPDPART", [] => some [.updpart]
  | "PWRON", [] => some [.pwron]
  | "PWROFF", [] => some [.pwroff]
  | "INIT", [] => some [.init]
  | "UPDATE", [] => some [.update]
  | "UPDWIN", [x, y, w, h] => do
    some [.updwin (← unsigned 16 x) (← unsigned 16 y) (← unsigned 16 w) (← unsigned 16 h)]
  | "ERASE", [] => some [.erase]
  | "FILL", [c] => do some [.fill (← colour c)]
  | "PIXEL", [x, y, c] => do some [.pixel (← int16 x) (← int16 y) (← colour c)]
  | "GETPIX", [x, y] => do some [.getpix (← int16 x) (← int16 y)]
  | "SETROT", [r] => do some [.setrot (← unsigned 8 r)]
  | "CLRF", [] => some [.clrf]
  | "WREG", c :: ds => do some (.wcmd (← unsigned 8 c) :: (← byteList ds).map .wdat)
  | "WDATA", d :: ds => do
    let bs ← byteList (d :: ds)
    if bs.length < 65536 then some [.wdatn (BitVec.ofNat 16 bs.length) bs] else none
  | "FULLCYCLE", [] => some [.init, .update]
  | _, _ => none

/-- R105: one line, "`;` starts a comment"; a line with nothing on it is no operation. -/
def line (cs : List Char) : Option (List Instr) :=
  match trim (cs.takeWhile (fun c => c ≠ ';')) with
  | [] => some []
  | t => operation (String.ofList (t.takeWhile (fun c => !isBlank c)))
      (operands (t.dropWhile (fun c => !isBlank c)))

/-- R105: "a program is a straight list", one operation per line. -/
def program (text : String) : Option (List Instr) :=
  ((pieces '\n' text.toList).mapM line).map List.flatten

/-- The packets a host presents for a text (R90, R91). -/
def packets (text : String) : Option (List (List Byte)) := (program text).map fun is => is.map encode

end Sys2Proof.Machine.Assembler
end

