-- ==== Sys2Proof/Tests/Slice0.lean ====
section
/-! SUPPORT. Tests. Expected results are the vectors of `spec/95_test_vectors.md` (named B1.1 and so on in the
comments) or hand calculation from the rules cited; then, for every statement with hypotheses, a witness that
meets them. -/

namespace Sys2Proof.Tests

open Sys2Proof.Machine

/-! ### WellFormed: each check refuses an ill-formed term -/

theorem test_wellFormed_refuses : (Instr.wdatn 2 [0xAA]).wellFormed = false ∧ (Instr.fill 2).wellFormed = false ∧
    (Instr.pixel 3 0 0x81).wellFormed = false ∧ (Instr.setrot 4).wellFormed = false := by decide

/-! ### Decoding: B1.1, B1.2, R93, R96 -/

theorem test_decode_transport : decode [0x81] = some .reset ∧ decode [0x82, 0x12] = some (.wcmd 0x12) ∧
    decode [0x83, 0xC7] = some (.wdat 0xC7) ∧
    decode [0x84, 0x03, 0x00, 0xFF, 0x00, 0xAA] = some (.wdatn 3 [0xFF, 0x00, 0xAA]) ∧
    decode [0x84, 0x00, 0x00] = some (.wdatn 0 []) ∧ decode [0x85] = some .waitb := by decide

theorem test_decode_sequencer : decode [0x90, 0x03] = some (.initdisp 3) ∧ decode [0x91, 0xFF] = some (.setem 255) ∧
    decode [0x92, 0x01] = some (.initfull 1) ∧ decode [0x93, 0x03] = some (.initpart 3) ∧
    decode [0x94] = some .updfull ∧ decode [0x95] = some .updpart ∧ decode [0x96] = some .pwron ∧
    decode [0x97] = some .pwroff := by decide

theorem test_decode_refresh : decode [0xA0] = some .init ∧ decode [0xA1] = some .update ∧
    decode [0xA2, 0x00, 0x01, 0xF9, 0x00, 0xFF, 0xFF, 0x01, 0x00] = some (.updwin 256 249 65535 1) ∧
    decode [0xA3] = some .erase := by decide

theorem test_decode_framebuffer : decode [0xB0, 0x01] = some (.fill 1) ∧
    decode [0xB1, 0xFF, 0xFF, 0x2C, 0x01, 0x00] = some (.pixel (BitVec.ofInt 16 (-1)) 300 0) ∧
    decode [0xB2, 0xF9, 0x00, 0x79, 0x00] = some (.getpix 249 121) ∧ decode [0xB3, 0x01] = some (.setrot 1) ∧
    decode [0xF0] = some .clrf := by decide

theorem test_decode_panel : decode [0x01] = some .pDriverOutput ∧ decode [0x03] = some .pGateVoltage ∧
    decode [0x04] = some .pSourceVoltage ∧ decode [0x11] = some .pDataEntryMode ∧ decode [0x12] = some .pSwReset ∧
    decode [0x20] = some .pActivate ∧ decode [0x22] = some .pUpdateControl ∧
    decode [0x24] = some .pRamWriteCurrent ∧ decode [0x26] = some .pRamWritePrevious ∧ decode [0x2C] = some .pVcom ∧
    decode [0x32] = some .pLut ∧ decode [0x3A] = some .pTimingA ∧ decode [0x3B] = some .pTimingB ∧
    decode [0x3C] = some .pBorder ∧ decode [0x44] = some .pRamXWindow ∧ decode [0x45] = some .pRamYWindow ∧
    decode [0x4E] = some .pRamXCounter ∧ decode [0x4F] = some .pRamYCounter ∧ decode [0x74] = some .pAnalogBlock ∧
    decode [0x7E] = some .pDigitalBlock := by decide

/-- B1.3: every illegal packet of the table, with the reason the table gives. -/
theorem test_illegal_packets :
    [[0x00], [0x80], [0x12], [0x86, 0x00], [0xFF], []].map packetProblem
      = List.replicate 6 (some .reservedOpcode) ∧
    [[0x82], [0x82, 0x12, 0x00], [0x84, 0x02, 0x00, 0xAA], [0xA2, 0, 0, 0, 0, 1, 0, 1]].map packetProblem
      = List.replicate 4 (some .wrongLength) ∧
    [[0xB0, 0x02], [0xB0, 0x81], [0xB1, 3, 0, 0, 0, 2]].map packetProblem = List.replicate 3 (some .colourBits) ∧
    packetProblem [0xB3, 0x04] = some .rotationRange ∧ packetProblem [0xB3, 0x03] = none := by decide

/-- The table's numbering: the second Byte of a packet is bits 15..8; missing operand Bytes are zero. -/
theorem test_table_words : decodeTableWord 8 0x82 = some (.wcmd 0) ∧ decodeTableWord 16 0x1282 = some (.wcmd 0x12) ∧
    decodeTableWord 24 0x000384 = some (.wdatn 3 [0, 0, 0]) ∧ decodeTableWord 8 0x7E = some .pDigitalBlock := by
  decide

/-- B1.1, R105, R106: text to packets. -/
theorem test_assembler :
    Assembler.packets "UPDWIN 3, 10, 10, 2 ; a comment\n\nPIXEL -1, 300, WHITE\nWDATA 0xFF, 0, 0xAA" =
      some [[0xA2, 0x03, 0x00, 0x0A, 0x00, 0x0A, 0x00, 0x02, 0x00], [0xB1, 0xFF, 0xFF, 0x2C, 0x01, 0x00],
        [0x84, 0x03, 0x00, 0xFF, 0x00, 0xAA]] ∧
      Assembler.program "WREG 0x11, 1, 2\nFULLCYCLE" = some [.wcmd 0x11, .wdat 1, .wdat 2, .init, .update] ∧
      Assembler.program "P_LUT" = none := by decide +kernel

/-! ### One step under the test instantiation T of `spec/95_test_vectors.md` §0 -/

/-- The instantiation T. -/
def T : Params :=
  { Config.params with
    reg := ⟨[0xA1], [0xA2], [0xA3, 0xA4, 0xA5], [0xA6], [0xA7], [0xA9], [0xAA, 0xAB, 0xAC], [0xAD], [0xAE]⟩
    vcomPart := 0xA8
    lutFull := [0xF0, 0xF1, 0xF2, 0xF3]
    lutPart := [0xE0, 0xE1, 0xE2]
    busyMaxPolls := 3 }

/-- From block reset, with these samples of BUSY to come. -/
def start (busy : List Bool) : State := { State.reset with busy := busy }

/-- "busy = low", for that many samples. -/
def low (n : Nat) : State := start (List.replicate n false)

/-- The trace of one operation. -/
def traceOf (i : Instr) (s : State) : List Event := (execUnder T i s).trace

/-- The trace of `INITDISP em` before its SETEM (B3.6). -/
def registers : List Event :=
  [.cmd 0x74, .dat 0xA1, .cmd 0x7E, .dat 0xA2, .cmd 0x01, .dat 0xA3, .dat 0xA4, .dat 0xA5, .cmd 0x44, .dat 0x00,
    .dat 0x0F, .cmd 0x45, .dat 0x00, .dat 0x00, .dat 0xF9, .dat 0x00, .cmd 0x3C, .dat 0xA6, .cmd 0x2C, .dat 0xA7,
    .cmd 0x03, .dat 0xA9, .cmd 0x04, .dat 0xAA, .dat 0xAB, .dat 0xAC, .cmd 0x3A, .dat 0xAD, .cmd 0x3B, .dat 0xAE]

/-- B3.4: the trace of `SETEM 3`. -/
def setem3 : List Event :=
  [.cmd 0x11, .dat 0x03, .cmd 0x44, .dat 0x00, .dat 0x0F, .cmd 0x45, .dat 0x00, .dat 0x00, .dat 0xF9, .dat 0x00,
    .cmd 0x4E, .dat 0x00, .cmd 0x4F, .dat 0x00, .dat 0x00]

/-- B3.2: the trace of `SETEM 1`. -/
def setem1 : List Event :=
  [.cmd 0x11, .dat 0x01, .cmd 0x44, .dat 0x00, .dat 0x0F, .cmd 0x45, .dat 0xF9, .dat 0x00, .dat 0x00, .dat 0x00,
    .cmd 0x4E, .dat 0x00, .cmd 0x4F, .dat 0xF9, .dat 0x00]

/-- B2.2 -/
theorem test_reset_polls : traceOf .reset (start [true, false]) =
      [.rst false, .dly .rstLow, .rst true, .dly .rstSettle, .poll true, .poll false] ∧
    (execUnder T .reset (start [true, false])).stall = false := by decide +kernel

/-- B2.3 -/
theorem test_reset_stuck : let t := execUnder T .reset (start [true, true, true])
    t.fault = true ∧ t.fop = 0x81 ∧ t.fupc = 4 ∧ t.pins.rst = true ∧ t.trace.length = 7 := by decide +kernel

/-- B2.4 -/
theorem test_wcmd_stalls : traceOf (.wcmd 0x12) (start [true, true, false]) =
      [.poll true, .poll true, .poll false, .cmd 0x12] ∧
    (execUnder T (.wcmd 0x12) (start [true, true, false])).stall = true := by decide +kernel

/-- B2.6 -/
theorem test_wdat_ignores_busy : traceOf (.wdat 0xC7) (start [true]) = [.dat 0xC7] ∧
    (execUnder T (.wdat 0xC7) (start [true])).busy = [true] := by decide +kernel

/-- B2.8 -/
theorem test_wdatn : traceOf (.wdatn 3 [0xFF, 0x00, 0xAA]) State.reset = [.dat 0xFF, .dat 0x00, .dat 0xAA] := by
  decide +kernel

/-- B2.11: exactly the bound's samples, and a WAIT does not log. -/
theorem test_waitb_bound : let t := execUnder T .waitb (start [true, true, true, false])
    t.fault = true ∧ t.fop = 0x85 ∧ t.stall = false ∧ t.busy = [false] ∧ t.pollcnt = 3 := by decide +kernel

/-- B3.5 -/
theorem test_setem_clamps : noPolls (traceOf (.setem 0x80) (low 5)) = setem3 ∧
    (execUnder T (.setem 0x80) (low 5)).em = 3 ∧ (execUnder T (.setem 0x80) (low 5)).ill = false := by
  decide +kernel

/-- B3.6 -/
theorem test_initdisp : noPolls (traceOf (.initdisp 3) (low 16)) = registers ++ setem3 := by decide +kernel

/-- B3.7: the events after those of `INITDISP 1`. -/
def initfullTail : List Event :=
  [.cmd 0x32, .dat 0xF0, .dat 0xF1, .dat 0xF2, .dat 0xF3, .cmd 0x22, .dat 0xC0, .cmd 0x20]

/-- B3.7 -/
theorem test_initfull : noPolls (traceOf (.initfull 1) (low 20)) = registers ++ (setem1 ++ initfullTail) ∧
    (traceOf (.initfull 1) (low 20)).countP (· == .poll false) = 20 := by decide +kernel

/-- B3.11 -/
theorem test_initfull_fault :
    let t := execUnder T (.initfull 3) (start (List.replicate 16 false ++ List.replicate 3 true))
    t.fupc = 48 ∧ t.fop = 0x92 ∧ t.lutsel = 0 ∧ t.pwr = false ∧ t.winv = true ∧ t.stall = true := by
  decide +kernel

/-- B3.8: the events after those of B3.6. -/
def initpartTail : List Event :=
  [.cmd 0x2C, .dat 0xA8, .cmd 0x32, .dat 0xE0, .dat 0xE1, .dat 0xE2, .cmd 0x22, .dat 0xC0, .cmd 0x20]

/-- B3.8 -/
theorem test_initpart : noPolls (traceOf (.initpart 3) (low 21)) = registers ++ (setem3 ++ initpartTail) := by
  decide +kernel

/-- B3.9 -/
theorem test_updfull : traceOf .updfull (low 3) =
    [.poll false, .cmd 0x22, .dat 0xC7, .poll false, .cmd 0x20, .poll false] := by decide +kernel

/-- B3.9 -/
theorem test_updpart : traceOf .updpart (low 3) =
    [.poll false, .cmd 0x22, .dat 0x04, .poll false, .cmd 0x20, .poll false] := by decide +kernel

/-- B3.10 -/
theorem test_pwron_fault : let t := execUnder T .pwron (start [false, false, true, true, true])
    t.fupc = 4 ∧ t.pwr = true ∧ t.stall = false := by decide +kernel

/-- B3.10 -/
theorem test_pwroff_fault :
    let t := execUnder T .pwroff { start [false, false, true, true, true] with pwr := true }
    t.fupc = 3 ∧ t.fop = 0x97 ∧ t.pwr = true := by decide +kernel

/-- B4.2 -/
theorem test_init : (traceOf .init (start [true, false, false, true, true, false])).drop 4 =
    [.poll true, .poll false, .poll false, .cmd 0x12, .poll true, .poll true, .poll false] := by decide +kernel

/-- B4.5's framebuffer. -/
def twoPixels : List Host.Cell := [(160, 0x10), (177, 0x08)]

/-- B4.5: the events after those of B3.6. -/
def updwinTail : List Event :=
  [.cmd 0x2C, .dat 0xA8, .cmd 0x32, .dat 0xE0, .dat 0xE1, .dat 0xE2, .cmd 0x22, .dat 0xC0, .cmd 0x20,
    .cmd 0x44, .dat 0x00, .dat 0x01, .cmd 0x45, .dat 0x0A, .dat 0x00, .dat 0x0B, .dat 0x00,
    .cmd 0x4E, .dat 0x00, .cmd 0x4F, .dat 0x0A, .dat 0x00,
    .cmd 0x24, .dat 0xEF, .dat 0xFF, .dat 0xFF, .dat 0xF7, .dly .streamSettle,
    .cmd 0x26, .dat 0xEF, .dat 0xFF, .dat 0xFF, .dat 0xF7, .cmd 0x22, .dat 0x04, .cmd 0x20]

/-- B4.5 -/
theorem test_updwin : noPolls (traceOf (.updwin 3 10 10 2) { low 30 with fb := twoPixels }) =
    registers ++ (setem3 ++ updwinTail) := by decide +kernel

/-- B4.4: rows of the clip table. -/
theorem test_clip : clip 100 240 100 100 = some ⟨12, 15, 240, 249⟩ ∧ clip 127 0 65535 1 = some ⟨15, 15, 0, 0⟩ ∧
    clip 16 100 16 50 = some ⟨2, 3, 100, 149⟩ ∧ clip 128 0 1 1 = none ∧ clip 5 5 3 0 = none := by decide

/-- The link events of one operation. -/
def eventsUnder (i : Instr) (s : State) : List Event := noPolls (traceOf i s)

/-- B4.6's framebuffer and panel. -/
def beforeUpdate : State := { low 28 with fb := [(0, 0x10), (33, 0x40)] }

/-- B4.6: the number of events, the two commands, and the stream Bytes that are not 0xFF. -/
theorem test_update : (eventsUnder .update beforeUpdate).length = 8061 ∧
    [53, 54, 87, 4054, 4055].map (fun k => (eventsUnder .update beforeUpdate)[k]?) =
      [some (.cmd 0x24), some (.dat 0xEF), some (.dat 0xBF), some (.cmd 0x26), some (.dat 0xEF)] := by decide +kernel

/-- B4.8, row 27: the WAIT of PowerOff expires. -/
theorem test_update_fault : let t := execUnder T .update (start (List.replicate 27 false ++ List.replicate 3 true))
    t.fupc = 67 ∧ t.pwr = true ∧ t.lutsel = 1 ∧ t.stall = false := by decide +kernel

/-- B4.7 -/
theorem test_erase : let t := execUnder T .erase (execUnder T (.fill 1) (low 28))
    (noPolls t.trace).length = 8061 ∧ (noPolls t.trace)[54]? = some (.dat 0xFF) ∧ t.em = 1 ∧ t.wys = 249 ∧
      readByte t.fb 3999 = 0xFF := by decide +kernel

/-- B5.2 -/
theorem test_fill_then_clear :
    let t := execUnder T (.pixel 127 249 0) (execUnder T (.pixel 0 0 0) (execUnder T (.fill 1) State.reset))
    readByte t.fb 0 = 0x7F ∧ readByte t.fb 3999 = 0xFE ∧ readByte t.fb 1 = 0xFF := by decide +kernel

/-- B5.1 -/
theorem test_pixel_sets_and_clips :
    (execUnder T (.pixel 4 0 1) (execUnder T (.pixel 3 0 1) State.reset)).fb = [(0, 0x18)] ∧
      (execUnder T (.pixel 128 0 1) State.reset).fb = [] ∧ (execUnder T (.pixel 0xFFFF 0 1) State.reset).fb = [] := by
  decide +kernel

/-- B5.3: (-6, 0) under rotation 2 is the last pixel of the framebuffer. -/
theorem test_pixel_rotates :
    (execUnder T (.pixel (BitVec.ofInt 16 (-6)) 0 1) { State.reset with rot := 2 }).fb = [(3999, 0x01)] := by
  decide +kernel

/-- B5.4 -/
theorem test_getpix :
    let s := { State.reset with fb := [(0, 0x10)] }
    (execUnder T (.getpix 3 0) s).rdata = true ∧ (execUnder T (.getpix 4 0) s).rdata = false ∧
      (execUnder T (.getpix 200 0) s).roob = true ∧ (execUnder T (.getpix 200 0) s).rdata = false := by
  decide +kernel

/-- B5.6 -/
theorem test_setrot_moves_nothing :
    let t := execUnder T (.setrot 2) { State.reset with fb := [(0, 0x80)] }
    t.fb = [(0, 0x80)] ∧ (execUnder T (.getpix 121 249) t).rdata = true := by decide +kernel

/-- B6.1, steps 1, 2 and 8. -/
theorem test_fault_refuse_clear :
    let f := execUnder T .waitb (start [true, true, true])
    let r := execUnder T .init f
    let c := execUnder T .clrf r
    r.rej = true ∧ r.opc = 0xA0 ∧ r.fop = 0x85 ∧ r.trace = f.trace ∧ c.fault = false ∧ c.rej = false ∧
      c.trace = f.trace := by decide +kernel

/-- B7.1: eight rising edges with CS and DC low, the bits of 0x12, and MOSI left at bit 0. -/
theorem test_command_pins :
    sampledBits State.resetPins (Uop.wave State.resetPins (.cmd 0x12)) =
      [false, false, false, true, false, false, true, false].map (fun v => (v, false, false)) ∧
    (Uop.wave State.resetPins (.cmd 0x12)).getLast? = some State.resetPins := by decide

/-- B7.3: the high Byte of a row, through the generator. -/
theorem test_ram_pointer : linkEvents (ramPtr 3 0x0123) =
    [.cmd 0x4E, .dat 0x03, .cmd 0x4F, .dat 0x23, .dat 0x01] := by decide

/-- R132, R236: a panel command in a running micro-program, and outside one. -/
theorem test_panel_command :
    let s := { low 1 with active := true, opc := 0x82, a0 := 0x22 }
    (execUnder T .pUpdateControl s).trace = [.poll false, .cmd 0x22] ∧ (execUnder T .pUpdateControl s).upc = 1 ∧
      (execUnder T .pUpdateControl (low 1)).ill = true ∧ (execUnder T .pUpdateControl (low 1)).trace = [] := by
  decide +kernel

/-- Each panel command sends its own opcode. -/
theorem test_panel_opcodes :
    let s := { low 1 with active := true, opc := 0x82 }
    [Instr.pDriverOutput, .pGateVoltage, .pSourceVoltage, .pDataEntryMode, .pSwReset, .pActivate, .pUpdateControl,
      .pRamWriteCurrent, .pRamWritePrevious, .pVcom, .pLut, .pTimingA, .pTimingB, .pBorder, .pRamXWindow,
      .pRamYWindow, .pRamXCounter, .pRamYCounter, .pAnalogBlock, .pDigitalBlock].map (fun i => traceOf i s) =
    [0x01, 0x03, 0x04, 0x11, 0x12, 0x20, 0x22, 0x24, 0x26, 0x2C, 0x32, 0x3A, 0x3B, 0x3C, 0x44, 0x45, 0x4E, 0x4F,
      0x74, 0x7E].map (fun b => [Event.poll false, .cmd b]) := by decide +kernel

/-- R320: block reset in the midst of a panel reset; RST goes high with no event. -/
theorem test_block_reset_abandons :
    step { State.reset with active := true, opc := 0xA0, upc := 1, pins := { State.resetPins with rst := false },
                            inbox := [.blockReset, .packet [0xF0]] } =
      .next { State.reset with inbox := [.packet [0xF0]] } := rfl

/-- A3, A4, B8.3: the host's line procedure. -/
theorem test_line : HostProgram.line 0 0 0 4 true = [(0, 0, true), (0, 1, true), (0, 2, true), (0, 3, true),
    (0, 4, true)] ∧ HostProgram.line 0 0 3 2 true = [(0, 0, true), (1, 1, true), (2, 1, true), (3, 2, true)] := by
  decide

/-- R265, R262: pixels equal to the background are transparent; what no source gives is the parameter's. -/
theorem test_bitmap :
    let P : HostProgram.HostParams := ⟨fun _ _ => 0, fun w _ i j => ((j * w + i) / 8, Fin.ofNat 8 (7 - i % 8)), true, 122, 250,
      fun _ _ _ _ => [(9, 9, true)], fun _ _ _ _ => []⟩
    HostProgram.drawBitmap P (fun _ => 0x50) 10 20 4 1 false = [(11, 20, true), (13, 20, true)] ∧
      HostProgram.fillRect P 0 0 2 0 false = [(9, 9, true), (9, 9, true)] ∧
      HostProgram.fillRect P 0 0 2 1 true = [(0, 0, true), (1, 0, true)] := by decide

/-! ### Witnesses: a state and operands that meet the hypotheses of each statement that has any

`quiet n` answers `n` busy waits at once; `stuck` never answers one; `late` answers at the last sample the bound
allows; `running b` is in the midst of `WCMD b`. -/

/-- A state whose panel answers every wait at the first sample. -/
def quiet (n : Nat) : State := start (List.replicate (n * Config.params.busyMaxPolls) false)

/-- A state whose panel never answers one wait. -/
def stuck : State := start (List.replicate Config.params.busyMaxPolls true)

/-- A state whose panel answers a wait at its last sample. -/
def late : State := start (List.replicate (Config.params.busyMaxPolls - 1) true ++ [false])

/-- A state whose panel answers at once. -/
def prompt : State := start [false]

/-- A state in the midst of `WCMD b`. -/
def running (b : Byte) : State := { State.reset with active := true, opc := 0x82, a0 := byteOperand b }

theorem quiet_responsive (n : Nat) : Responsive Config.params (n * Config.params.busyMaxPolls) (quiet n) := by
  intro k hk
  refine ⟨0, params_wf.polls, ?_⟩
  simp [upcomingBusy, quiet, start, hk]

theorem stuck_busy : StuckBusy Config.params stuck := by
  intro i hi
  simp [upcomingBusy, stuck, start, hi]

theorem prompt_ready : FirstReady prompt 0 ∧ 0 < Config.params.busyMaxPolls :=
  ⟨⟨by simp, rfl⟩, params_wf.polls⟩

theorem late_ready : FirstReady late (Config.params.busyMaxPolls - 1) ∧
    Config.params.busyMaxPolls - 1 < Config.params.busyMaxPolls := by
  have := params_wf.polls
  refine ⟨⟨fun i hi => ?_, ?_⟩, by omega⟩
  · simp [upcomingBusy, late, start, List.getElem?_append, hi]
  · simp [upcomingBusy, late, start]

/-- The hypotheses of `CompletesWith` at `n` waits. -/
abbrev Ready (n : Nat) (s : State) : Prop :=
  s.active = false ∧ s.fault = false ∧ Responsive Config.params (n * Config.params.busyMaxPolls) s

theorem quiet_ready (n : Nat) : Ready n (quiet n) := ⟨rfl, rfl, quiet_responsive n⟩

/-- A run of an operation that completes. -/
theorem quiet_completes (i : Instr) (hl : isLink i = true) (hw : i.wellFormed = true) :
    ∃ s t, s.active = false ∧ s.fault = false ∧ exec i s = .next t ∧ t.fault = false := by
  let s := quiet (waitCount (expand Config.params (latch i State.reset)))
  have he : expand Config.params (latch i s) = expand Config.params (latch i State.reset) := by
    cases i <;> rfl
  obtain ⟨t, ht, hc⟩ := exec_completed (s := s) hl hw rfl rfl (by
    rw [AnswersAll, he]; exact quiet_responsive _)
  exact ⟨s, t, rfl, rfl, ht, congrArg FaultRecord.fault hc.record⟩

/-- A run of an operation that faults. -/
theorem stuck_faults (i : Instr) (hl : isLink i = true) (hw : i.wellFormed = true) {u : Uop} {post : List Uop}
    (he : expand Config.params (latch i stuck) = u :: post) (hu : u.waits = true) :
    ∃ s t, s.active = false ∧ s.fault = false ∧ exec i s = .next t ∧ t.fault = true := by
  obtain ⟨t, -, ht, hF, -⟩ := exec_stuck (pre := []) hl hw (s := stuck) rfl rfl he (by simp) hu stuck_busy
  exact ⟨stuck, t, rfl, rfl, ht, congrArg FaultRecord.fault hF.record⟩

theorem witness_BlockResetGivesTheTabledState : ∃ (s : State) (r : List HostInput),
    s.active = true ∧ s.inbox = .blockReset :: r :=
  ⟨{ running 0x12 with inbox := [.blockReset] }, [], rfl, rfl⟩

/-- Idle states with an empty inbox and with a `nothing`; a running one with a block reset before a request. -/
theorem witness_IdleBlockWaitsForTheHost :
    (∃ s : State, s.active = false ∧ s.inbox = [] ∧ s.busy = [true]) ∧
    (∃ (s : State) (r : List HostInput), s.active = false ∧ s.inbox = .nothing :: r) ∧
    (∃ s : State, s.active = false ∧ s.inbox = List.replicate 2 .nothing) ∧
    ∃ (s : State) (r : List HostInput), s.active = true ∧ 2 ≤ 2 ∧
      s.inbox = .blockReset :: (List.replicate 2 .nothing ++ r) :=
  ⟨⟨start [true], rfl, rfl, rfl⟩, ⟨{ State.reset with inbox := [.nothing] }, [], rfl, rfl⟩,
    ⟨{ State.reset with inbox := [.nothing, .nothing] }, rfl, rfl⟩,
    { running 0x12 with inbox := [.blockReset, .nothing, .nothing, .packet [0xF0]] }, [.packet [0xF0]], rfl, le_refl 2, rfl⟩

theorem running_inv : Inv (running 0x12) where
  fb := ⟨List.Pairwise.nil, by simp [running, State.reset]⟩
  link := ⟨rfl, rfl, rfl⟩
  cause := rfl
  record := fun _ => ⟨rfl, rfl⟩
  exclusive := fun h => by simp [running, State.reset] at h
  idle := fun h => by simp [running] at h
  running := fun _ => Nat.zero_le _
  resetPin := fun _ => rfl
  bidx := rfl
  lutsel := by decide
  window := ⟨by decide, by decide, by decide, by decide⟩

theorem witness_StepKeepsTheInvariant : ∃ s t, Inv s ∧ step s = .next t :=
  ⟨running 0x12, _, running_inv, rfl⟩

theorem witness_NoCommandWhileBusy :
    (∃ s t, commandsGuarded s.traceRev = true ∧ s.traceRev ≠ [] ∧ step s = .next t) ∧
      Spec.sequenced .update = true ∧ (∃ b, Uop.dat 0x55 = .dat b) :=
  ⟨⟨{ running 0x12 with traceRev := [.cmd 0x22, .poll false] }, _, rfl, by simp, rfl⟩, rfl, _, rfl⟩

theorem running_notResetting (b : Byte) : ¬ Spec.resetting (running b) := by
  simp [Spec.resetting, running, State.reset]

theorem witness_TraceOnlyGrows : ∃ s t, ¬ Spec.resetting s ∧ step s = .next t :=
  ⟨running 0x12, _, running_notResetting _, rfl⟩

theorem witness_UpcAdvancesByOneInAFixedMicroProgram :
    ∃ s t, s.active = true ∧ ¬ Spec.resetting s ∧ step s = .next t :=
  ⟨running 0x12, _, rfl, running_notResetting _, rfl⟩

theorem witness_HostIsHeldOffWhileActive : (∃ s t, s.active = true ∧ ¬ Spec.resetting s ∧ step s = .next t) ∧
    ∃ (i : Instr) (s : State), isPanel i = false ∧ s.active = true :=
  ⟨⟨running 0x12, _, rfl, running_notResetting _, rfl⟩, .clrf, running 0x12, rfl, rfl⟩

theorem witness_FlagsAreSticky : ∃ s t, ¬ Spec.resetting s ∧ ¬ (s.active = false ∧ Spec.requested s .clrf) ∧
    step s = .next t ∧ s.stall = true ∧ s.ill = true ∧ s.rej = true :=
  ⟨{ running 0x12 with stall := true, ill := true, rej := true }, _,
    by simp [Spec.resetting, running, State.reset], by simp [running], rfl, rfl, rfl, rfl⟩

/-- Each clause of the statement: every instruction but the named writer. -/
theorem witness_OnlyTheNamedWritersWrite : (∃ s t, exec .waitb s = .next t) ∧
    (∃ s t, exec .clrf s = .next t) ∧ isLink .clrf = false ∧ isPanel .clrf = false ∧
    Spec.sequenced .waitb = false ∧ Instr.waitb ≠ .reset :=
  ⟨⟨State.reset, _, rfl⟩, ⟨State.reset, _, rfl⟩, rfl, rfl, rfl, by decide⟩

theorem witness_DecodeOfEncode : (Instr.wdatn 3 [0xFF, 0x00, 0xAA]).wellFormed = true := by decide

theorem witness_EncodeOfDecode : decode [0xB2, 0xF9, 0x00, 0x79, 0x00] = some (.getpix 249 121) := by decide

/-- The boundary operands of the clauses with a condition: a count of 256, both colours, rotation 3. -/
theorem witness_PacketsDecodeAsTabled :
    (List.replicate 256 (0xAA : Byte)).length = (0x00 : Byte).toNat + 256 * (0x01 : Byte).toNat ∧
      ((0 : Byte) = 0 ∨ (0 : Byte) = 1) ∧ ((1 : Byte) = 0 ∨ (1 : Byte) = 1) ∧ (3 : Byte).toNat ≤ 3 :=
  ⟨List.length_replicate.trans (by decide), by decide, by decide, by decide⟩

theorem witness_PanelBytesDecodeAsTabled : ((0x7E : Byte), Instr.pDigitalBlock) ∈ Spec.panelTable := by decide

theorem witness_IllegalPacketsSetIllOnly : ∃ (s : State) (bs : List Byte) (r : List HostInput), s.active = false ∧
    illegalPacket bs = true ∧ (s.inbox = .packet bs :: r ∨ s.inbox = .packetStepwise bs :: r) :=
  ⟨{ State.reset with inbox := [.packet [0xB0, 0x02]] }, [0xB0, 0x02], [], rfl, by decide, .inl rfl⟩

theorem witness_StepRunsTheDecodedInstruction :
    (∃ (s : State) (bs : List Byte) (r : List HostInput) (i : Instr), s.active = false ∧ s.inbox = .packet bs :: r ∧
      decodePacket bs = some i) ∧
    (decodeTableWord 8 0xF0 = some .clrf ∧ isPanel .clrf = false) ∧
    decodeTableWord 8 0x12 = some .pSwReset ∧ isPanel .pSwReset = true :=
  ⟨⟨{ State.reset with inbox := [.packet [0xF0]] }, [0xF0], [], .clrf, rfl, rfl, by decide⟩,
    ⟨by decide, rfl⟩, by decide, rfl⟩

/-- One state for each clause: a listed command, an unlisted one, another µop, the end of the micro-program. -/
theorem witness_StepPerformsTheCurrentMicroOperation :
    (currentUop Config.params (running 0x12) = some (.cmd 0x12) ∧ decodePanel 0x12 = some .pSwReset) ∧
    (currentUop Config.params (running 0x7F) = some (.cmd 0x7F) ∧ decodePanel 0x7F = none) ∧
    (currentUop Config.params { running 0 with opc := 0x85 } = some .wait ∧ ∀ b, Uop.wait ≠ .cmd b) ∧
    currentUop Config.params { running 0x12 with upc := 1 } = none ∧ (running 0x12).active = true ∧
    ¬ Spec.resetting (running 0x12) :=
  ⟨⟨rfl, rfl⟩, ⟨rfl, rfl⟩, ⟨rfl, by simp⟩, rfl, rfl, running_notResetting _⟩

theorem witness_StepwiseRunMeetsExec : ∃ (s : State) (bs cs : List Byte), isLink .update = true ∧ s.active = false ∧
    decodePacket bs = some .update ∧ s.inbox = [.packetStepwise bs, .packet cs] :=
  ⟨{ State.reset with inbox := [.packetStepwise [0xA1], .packet [0xF0]] }, [0xA1], [0xF0], rfl, rfl, by decide, rfl⟩

/-- Each clause: an illegal packet, and a legal link operation under FAULT and without it. -/
theorem witness_AcceptanceOrder : (illegalPacket [0x80] = true ∧ decodePacket [0x83, 0x55] = some (.wdat 0x55)) ∧
    isLink (.wdat 0x55) = true ∧
    (∃ (s : State) (bs : List Byte) (r : List HostInput), s.active = false ∧ s.inbox = .packet bs :: r ∧
      s.fault = true) ∧
    ∃ (s : State) (bs : List Byte) (r : List HostInput), s.active = false ∧ s.inbox = .packet bs :: r ∧
      s.fault = false :=
  ⟨⟨by decide, by decide⟩, rfl, ⟨{ State.reset with fault := true, inbox := [.packet [0x83, 0x55]] }, _, _, rfl, rfl,
    rfl⟩, { State.reset with inbox := [.packet [0x83, 0x55]] }, _, _, rfl, rfl, rfl⟩

theorem witness_LinkOperationsAreRefusedUnderFault : (∃ (i : Instr) (s : State), isLink i = true ∧
      i.wellFormed = true ∧ s.active = false ∧ s.fault = true) ∧
    (∃ i : Instr, isLink i = false ∧ isPanel i = false ∧ i ≠ .clrf) ∧ State.reset.active = false :=
  ⟨⟨.init, { State.reset with fault := true }, rfl, rfl, rfl, rfl⟩, ⟨.fill 1, rfl, rfl, by decide⟩, rfl⟩

theorem witness_AcceptanceLoadsTheLatches : (State.reset.active = false ∧ (Instr.setrot 3).wellFormed = true) ∧
    (running 0x12).active = true ∧ (Instr.setrot 4).wellFormed = false := ⟨⟨rfl, by decide⟩, rfl, by decide⟩

/-- The first sample, the last the bound allows, and none. -/
theorem witness_BusyWaitIsExact : 1 ≤ Config.params.busyMaxPolls ∧
    (FirstReady prompt 0 ∧ 0 < Config.params.busyMaxPolls) ∧
    (FirstReady late (Config.params.busyMaxPolls - 1) ∧ Config.params.busyMaxPolls - 1 < Config.params.busyMaxPolls) ∧
    StuckBusy Config.params stuck := ⟨params_wf.polls, prompt_ready, late_ready, stuck_busy⟩

/-- The hypotheses of the statements about one busy wait of an idle block. -/
abbrev Waits : Prop := (∃ s : State, s.active = false ∧ s.fault = false ∧
      ∃ k, FirstReady s k ∧ k < Config.params.busyMaxPolls) ∧
    ∃ s : State, s.active = false ∧ s.fault = false ∧ StuckBusy Config.params s

theorem waits : Waits :=
  ⟨⟨late, rfl, rfl, _, late_ready.1, late_ready.2⟩, stuck, rfl, rfl, stuck_busy⟩

theorem witness_ResetOperation : Waits := waits

theorem witness_WcmdOperation : Waits := waits

theorem witness_RawDataOperations : ∃ (s : State) (n : U16) (ds : List Byte), s.active = false ∧ s.fault = false ∧
    ds.length = n.toNat ∧ ds = [] := ⟨stuck, 0, [], rfl, rfl, rfl, rfl⟩

theorem witness_WaitbOperation : Waits := waits

theorem witness_WavesCarryTheBytes : LinkIdle State.resetPins ∧
    ∃ s t, perform Config.params (.burst [0x12, 0x34]) s = .done t := ⟨⟨rfl, rfl, rfl⟩, State.reset, _, rfl⟩

theorem witness_SetemOperation : Ready 5 (quiet 5) := quiet_ready 5

theorem witness_InitdispOperation : Ready 16 (quiet 16) := quiet_ready 16

theorem witness_InitfullOperation : Ready 20 (quiet 20) := quiet_ready 20

theorem witness_InitpartOperation : Ready 21 (quiet 21) := quiet_ready 21

theorem witness_UpdateActivations : Ready 3 (quiet 3) := quiet_ready 3

/-- A state whose panel answers `n` waits at once and the next one never. -/
def stuckAfter (n : Nat) : State := start (List.replicate n false ++ List.replicate Config.params.busyMaxPolls true)

/-- A link operation meets the fault at any of its µops that wait. -/
theorem faults_at (i : Instr) (n : Nat) (hl : isLink i = true) (hw : i.wellFormed = true) (pre post : List Uop)
    (u : Uop) (hn : waitCount pre = n) (hu : u.waits = true)
    (he : expand Config.params (latch i (stuckAfter n)) = pre ++ u :: post) : ∃ s t, s.active = false ∧
      s.fault = false ∧ exec i s = .next t ∧ t.fault = true ∧ t.fupc = BitVec.ofNat 16 pre.length := by
  obtain ⟨t, -, ht, hF, -⟩ := exec_faults (i := i) (s := stuckAfter n) hl hw rfl rfl he
    (fun k hk => by simp [upcomingBusy, stuckAfter, start, List.getElem?_append, hn ▸ hk]) hu
    fun k hk => by simp [upcomingBusy, stuckAfter, start, hn, hk]
  exact ⟨_, t, rfl, rfl, ht, congrArg FaultRecord.fault hF.record, congrArg FaultRecord.fupc hF.record⟩

/-- Faults at the final wait and at an earlier µop. -/
theorem witness_PwronOperation : Ready 3 (quiet 3) ∧
    (∃ s t, s.active = false ∧ s.fault = false ∧ exec .pwron s = .next t ∧ t.fault = true ∧ t.fupc = 4) ∧
    ∃ s t, s.active = false ∧ s.fault = false ∧ exec .pwron s = .next t ∧ t.fault = true ∧ t.fupc = 0 :=
  ⟨quiet_ready 3, faults_at .pwron 2 rfl rfl [.cmd 0x22, .dat 0xC0, .cmd 0x20, .sh (.pwr true)] [] .wait rfl rfl rfl,
    faults_at .pwron 0 rfl rfl [] [.dat 0xC0, .cmd 0x20, .sh (.pwr true), .wait] (.cmd 0x22) rfl rfl rfl⟩

theorem witness_PwroffOperation : Ready 3 (quiet 3) ∧
    ∃ s t, s.active = false ∧ s.fault = false ∧ exec .pwroff s = .next t ∧ t.fault = true :=
  ⟨quiet_ready 3, stuck_faults .pwroff rfl rfl rfl rfl⟩

/-- The largest rectangle: pixels 3..127 of every row, widened to all sixteen byte columns. -/
theorem rectangle_clipped : Spec.Clipped (3 : U16).toNat (0 : U16).toNat (0xFFFF : U16).toNat (0xFFFF : U16).toNat
    { xsb := 0, xeb := 15, ys := 0, ye := 249 } := by
  refine ⟨by decide, by decide, by decide, rfl, by decide⟩

theorem witness_LutMultiplexerSendsTheWholeTable :
    ∃ (x y w h : U16) (r : Rect), Spec.Clipped x.toNat y.toNat w.toNat h.toNat r := ⟨_, _, _, _, _, rectangle_clipped⟩

theorem witness_MicroProgramLengths :
    ∃ (x y w h : U16) (r : Rect), Spec.Clipped x.toNat y.toNat w.toNat h.toNat r := ⟨_, _, _, _, _, rectangle_clipped⟩

theorem witness_PanelCommandsSendTheirByte : ((0x12 : Byte), Instr.pSwReset) ∈ Spec.panelTable ∧
    (∃ s : State, s.active = false) ∧
    (∃ s : State, s.active = true ∧ ∃ k, FirstReady s k ∧ k < Config.params.busyMaxPolls) ∧
    ∃ s : State, s.active = true ∧ StuckBusy Config.params s := by
  refine ⟨by decide, ⟨State.reset, rfl⟩, ⟨{ running 0x12 with busy := late.busy }, rfl, _, late_ready.1, late_ready.2⟩,
    { running 0x12 with busy := stuck.busy }, rfl, stuck_busy⟩

theorem witness_PanelDataIsAsTabled : Spec.sequenced (.updwin 3 10 10 2) = true ∧
    (0x44, [0, 1]) ∈ commandsOf (linkEvents (expand T (latch (.updwin 3 10 10 2) State.reset))) := by decide +kernel

theorem witness_OnlyListedPanelOpcodes : Spec.sequenced .init = true ∧ Ready 1 (quiet 1) := ⟨rfl, quiet_ready 1⟩

/-- UPDWIN 3, 10, 10, 2 under T, at its first stream. -/
theorem witness_StreamsMatchTheWindow :
    let p := expand T (latch (.updwin 3 10 10 2) State.reset)
    p.take 72 ++ .cmd 0x24 :: .burst [0xFF, 0xFF, 0xFF, 0xFF] :: p.drop 74 = p ∧
      (performAll T (p.take 72 ++ [.cmd 0x24]) (low 27)).isSome = true := by decide +kernel

/-- A run that completes, and one that faults at each of the µops 4, 5 and 6. -/
theorem witness_InitOperation : Ready 3 (quiet 3) ∧
    (∃ s t, s.active = false ∧ s.fault = false ∧ exec .init s = .next t ∧ t.fault = false) ∧
    ∀ n : Fin 3, ∃ s t, s.active = false ∧ s.fault = false ∧ exec .init s = .next t ∧ t.fault = true ∧
      t.fupc = BitVec.ofNat 16 (4 + n) := by
  refine ⟨quiet_ready 3, quiet_completes .init rfl rfl, fun n => ?_⟩
  match n with
  | 0 => exact faults_at .init 0 rfl rfl [.rst false, .dly .rstLow, .rst true, .dly .rstSettle] [.cmd 0x12, .wait] .wait rfl rfl rfl
  | 1 => exact faults_at .init 1 rfl rfl [.rst false, .dly .rstLow, .rst true, .dly .rstSettle, .wait] [.wait] (.cmd 0x12) rfl rfl rfl
  | 2 => exact faults_at .init 2 rfl rfl [.rst false, .dly .rstLow, .rst true, .dly .rstSettle, .wait, .cmd 0x12] [] .wait rfl rfl rfl

theorem witness_UpdateOperation : Ready (28 + if Config.params.repointSecondBurst then 4 else 0)
    (quiet (28 + if Config.params.repointSecondBurst then 4 else 0)) ∧
    ∃ s t, s.active = false ∧ s.fault = false ∧ exec .update s = .next t ∧ t.fault = true :=
  ⟨quiet_ready _, stuck_faults .update rfl rfl rfl rfl⟩

theorem witness_EraseOperation : Ready (28 + if Config.params.repointSecondBurst then 4 else 0)
    (quiet (28 + if Config.params.repointSecondBurst then 4 else 0)) := quiet_ready _

/-- An empty rectangle at each edge, with and without FAULT, and the largest one. -/
theorem witness_UpdwinOperation : ((128 ≤ (128 : U16).toNat ∧ 250 ≤ (250 : U16).toNat) ∧
      State.reset.active = false ∧ State.reset.fault = false ∧ ({ State.reset with fault := true } : State).fault = true) ∧
    (∃ (x y w h : U16) (r : Rect), Spec.Clipped x.toNat y.toNat w.toNat h.toNat r) ∧
    Ready (30 + if Config.params.repointSecondBurst then 4 else 0)
      (quiet (30 + if Config.params.repointSecondBurst then 4 else 0)) ∧
    ∃ s t, s.active = false ∧ s.fault = false ∧ exec (.updwin 3 0 0xFFFF 0xFFFF) s = .next t ∧ t.fault = true :=
  ⟨⟨by decide, rfl, rfl, rfl⟩, ⟨_, _, _, _, _, rectangle_clipped⟩, quiet_ready _,
    stuck_faults (.updwin 3 0 0xFFFF 0xFFFF) rfl rfl rfl rfl⟩

/-- Pixel (127, 249) of the largest rectangle. -/
theorem witness_ClipWidensAndNeverNarrows : Spec.Clipped 3 0 65535 65535 { xsb := 0, xeb := 15, ys := 0, ye := 249 } ∧
    (127 < 128 ∧ 249 < 250 ∧ 3 ≤ 127 ∧ 127 < 3 + 65535) ∧ (clip 128 0 1 1 = none ∧ clip 0 250 1 1 = none) :=
  ⟨rectangle_clipped, by decide, by decide⟩

theorem witness_PowerShadowAfterCompletion :
    (∃ s t, s.active = false ∧ s.fault = false ∧ exec .pwroff s = .next t ∧ t.fault = false) ∧
      ∃ s t, s.active = false ∧ s.fault = false ∧ exec .pwron s = .next t ∧ t.fault = false :=
  ⟨quiet_completes .pwroff rfl rfl, quiet_completes .pwron rfl rfl⟩

theorem witness_FaultIsPrecise : ∃ (i : Instr) (s : State), isLink i = true ∧ i.wellFormed = true ∧
    s.active = false ∧ s.fault = false := ⟨.init, stuck, rfl, rfl, rfl, rfl⟩

theorem witness_StuckPanelFaultsAtTheFirstWait : (∃ (i : Instr) (s : State), isLink i = true ∧ i.wellFormed = true ∧
      s.active = false ∧ s.fault = false ∧ StuckBusy Config.params s ∧ Spec.firstWait i = some 4) ∧
    Spec.firstWait (.wdat 0) = none ∧ ∃ s t : State, s.cause = 0 ∧ exec .waitb s = .next t :=
  ⟨⟨.init, stuck, rfl, rfl, rfl, rfl, stuck_busy, rfl⟩, rfl, State.reset, _, rfl, rfl⟩

theorem witness_ClrfIsTheReturnAndFaultsDoNotNest : State.reset.active = false ∧ (running 0x12).active = true ∧
    ∃ (s t : State), s.fault = true ∧ s.active = false ∧ Instr.init ≠ .clrf ∧ exec .init s = .next t :=
  ⟨rfl, rfl, { State.reset with fault := true }, _, rfl, rfl, by decide, rfl⟩

theorem witness_FillOperation : State.reset.active = false ∧ ((1 : Byte) = 0 ∨ (1 : Byte) = 1) ∧
    ((2 : Byte) ≠ 0 ∧ (2 : Byte) ≠ 1) := ⟨rfl, by decide, by decide⟩

/-- The corners of the framebuffer and the pixels just outside, at rotation 0. -/
theorem witness_PixelOperation : (State.reset.active = false ∧ Memory.wf State.reset.fb) ∧
    Spec.inside (Config.params.rotXform 0 (127 : U16).toInt (249 : U16).toInt) ∧
    ¬ Spec.inside (Config.params.rotXform 0 (128 : U16).toInt (249 : U16).toInt) ∧ (2 : Byte) ≠ 0 ∧ (2 : Byte) ≠ 1 :=
  ⟨⟨rfl, List.Pairwise.nil, by simp [State.reset]⟩, by unfold Spec.inside; decide, by unfold Spec.inside; decide,
    by decide, by decide⟩

theorem witness_GetpixOperation : State.reset.active = false ∧
    Spec.inside (Config.params.rotXform 0 (0 : U16).toInt (249 : U16).toInt) ∧
    ¬ Spec.inside (Config.params.rotXform 0 (0xFFFF : U16).toInt (249 : U16).toInt) :=
  ⟨rfl, by unfold Spec.inside; decide, by unfold Spec.inside; decide⟩

theorem witness_SetrotOperation : State.reset.active = false ∧ (3 : Byte).toNat ≤ 3 ∧ 3 < (4 : Byte).toNat ∧
    ((∀ x y c, Instr.update ≠ .pixel x y c) ∧ (∀ x y, Instr.update ≠ .getpix x y) ∧ ∀ q, Instr.update ≠ .setrot q) :=
  ⟨rfl, by decide, by decide, by simp, by simp, by simp⟩

/-- The corners of the I16 operands, at the rotation that carries them furthest. -/
theorem witness_DefaultRotationRanges : (-32768 : Int) ≤ -32768 ∧ (-32768 : Int) ≤ 32767 ∧
    defaultRotation 2 (-32768) (-32768) = (32889, 33017) := by decide

theorem witness_ReadBackLaw : RotationLaws Config.params.rotXform ∧ State.reset.active = false ∧
    Memory.wf State.reset.fb ∧ ((1 : Byte) = 0 ∨ (1 : Byte) = 1) ∧
    Spec.inside (Config.params.rotXform 0 (127 : U16).toInt (249 : U16).toInt) ∧ ((126 : U16), (249 : U16)) ≠ (127, 249) ∧
    Spec.inside (Config.params.rotXform 0 (126 : U16).toInt (249 : U16).toInt) ∧
    ¬ Spec.inside (Config.params.rotXform 0 (128 : U16).toInt (249 : U16).toInt) :=
  ⟨defaultRotation_laws, rfl, ⟨List.Pairwise.nil, by simp [State.reset]⟩, by decide,
    by unfold Spec.inside; decide, by decide, by unfold Spec.inside; decide, by unfold Spec.inside; decide⟩

theorem witness_UpdateReachesThePanel :
    ∃ s t, s.active = false ∧ s.fault = false ∧ exec .update s = .next t ∧ t.fault = false :=
  quiet_completes .update rfl rfl

theorem witness_EraseClearsThePanel :
    ∃ s t, s.active = false ∧ s.fault = false ∧ exec .erase s = .next t ∧ t.fault = false :=
  quiet_completes .erase rfl rfl

theorem witness_UpdwinReachesItsRectangle :
    Spec.Clipped (3 : U16).toNat (0 : U16).toNat (0xFFFF : U16).toNat (0xFFFF : U16).toNat
      { xsb := 0, xeb := 15, ys := 0, ye := 249 } ∧
    ∃ s t, s.active = false ∧ s.fault = false ∧ exec (.updwin 3 0 0xFFFF 0xFFFF) s = .next t ∧ t.fault = false :=
  ⟨rectangle_clipped, quiet_completes (.updwin 3 0 0xFFFF 0xFFFF) rfl rfl⟩

/-- A wait of the stuck panel; the one µop of a running WCMD. -/
theorem witness_FaultEntryLeavesTheRecordAndTheIdleLink :
    (1 ≤ Config.params.busyMaxPolls ∧ ∃ t, perform Config.params .wait stuck = .raised t) ∧
    Inv (running 0x12) ∧ (running 0x12).active = true ∧ ∃ u, currentUop Config.params (running 0x12) = some u ∧
      u.waits = true := by
  refine ⟨⟨params_wf.polls, ?_⟩, running_inv, rfl, _, rfl, rfl⟩
  rcases waitBusy_cases Config.params false stuck with ⟨k, hk, -, hlast, -⟩ | ⟨-, he⟩
  · rw [stuck_busy k hk] at hlast; cases hlast
  · exact ⟨_, he⟩

end Sys2Proof.Tests
end

section
/-! PROOFS. Block reset (R46, R320). -/

namespace Sys2Proof.Proofs

open Sys2Proof.Machine

/-- R320: the block reset input is taken in any step, whether or not an operation runs. -/
theorem step_of_blockReset_input {s : State} {r : List HostInput} (h : s.inbox = .blockReset :: r) :
    step s = .next (blockReset { s with inbox := r }) := by
  simp [step, h]

/-- R46: the unwritten framebuffer of the reset state reads as 0x00 at every address, and the other elements hold
the table's values by definition. -/
theorem tabledReset_reset : Spec.TabledReset State.reset := by
  have hfb : ∀ i, i < 4000 → readByte State.reset.fb i = 0x00 := fun _ _ => rfl
  exact ⟨hfb, rfl, rfl, ⟨rfl, rfl, rfl, rfl⟩, rfl, ⟨rfl, rfl, rfl, rfl⟩, ⟨rfl, rfl, rfl⟩, ⟨rfl, rfl⟩, rfl, rfl⟩

/-- R46's table says nothing of the environment: the requests and BUSY levels still to come may be any. -/
theorem tabledReset_withEnvironment {t : State} (h : Spec.TabledReset t) (inbox : List HostInput) (busy : List Bool)
    (draws : Nat) : Spec.TabledReset { t with inbox := inbox, busy := busy, draws := draws } := h

/-- R46, R320: block reset differs from the reset state in the environment only. -/
theorem tabledReset_blockReset (s : State) : Spec.TabledReset (blockReset s) :=
  tabledReset_withEnvironment tabledReset_reset s.inbox s.busy s.draws

/-- Settles O1: the step that takes the block reset input leaves `blockReset`, which is the reset state but for the
environment, from whatever state it is taken. -/
theorem blockResetGivesTheTabledState : Obligations.BlockResetGivesTheTabledState := by
  refine ⟨tabledReset_reset, fun s r h => ?_⟩
  exact ⟨blockReset { s with inbox := r }, step_of_blockReset_input h, tabledReset_blockReset _, rfl⟩

end Sys2Proof.Proofs
end

section
/-! PROOFS. The packet decoder (R90, R91, R93, R101, R102): what each operand format takes, which packets are
illegal and what one does to the idle block, and the packets of R93's table. -/

namespace Sys2Proof.Proofs

open Sys2Proof.Machine

/-! ### The formats of R91: the length each takes, and the Byte at each offset -/

theorem operandsH0_eq (i : Instr) (body : List Byte) :
    operandsH0 i body = if body.length = 0 then some i else none := by
  cases body <;> simp [operandsH0]

theorem operandsH1_eq (k : Byte → Instr) (body : List Byte) :
    operandsH1 k body = if body.length = 1 then some (k (body.getD 0 0)) else none := by
  rcases body with _ | ⟨b, _ | ⟨_, _⟩⟩ <;> simp [operandsH1]

theorem operandsHN_eq (k : U16 → List Byte → Instr) (body : List Byte) :
    operandsHN k body = if body.length + 1 = 3 + ((body.getD 0 0).toNat + 256 * (body.getD 1 0).toNat)
      then some (k (joinBytes (body.getD 0 0) (body.getD 1 0)) (body.drop 2)) else none := by
  rcases body with _ | ⟨l, _ | ⟨h, ds⟩⟩
  · simp [operandsHN]
  · have : ¬ 2 = 3 + l.toNat := by omega
    simp [operandsHN, this]
  · have : ds.length + 1 + 1 + 1 = 3 + (l.toNat + 256 * h.toNat) ↔ ds.length = l.toNat + 256 * h.toNat := by omega
    simp [operandsHN, joinBytes_toNat, this]

theorem operandsH2W_eq (k : U16 → U16 → Instr) (body : List Byte) :
    operandsH2W k body = if body.length = 4
      then some (k (joinBytes (body.getD 0 0) (body.getD 1 0)) (joinBytes (body.getD 2 0) (body.getD 3 0)))
      else none := by
  rcases body with _ | ⟨_, _ | ⟨_, _ | ⟨_, _ | ⟨_, _ | ⟨_, _⟩⟩⟩⟩⟩ <;> simp [operandsH2W]

theorem operandsH2W1_eq (k : U16 → U16 → Byte → Instr) (body : List Byte) :
    operandsH2W1 k body = if body.length = 5
      then some (k (joinBytes (body.getD 0 0) (body.getD 1 0)) (joinBytes (body.getD 2 0) (body.getD 3 0))
        (body.getD 4 0))
      else none := by
  rcases body with _ | ⟨_, _ | ⟨_, _ | ⟨_, _ | ⟨_, _ | ⟨_, _ | ⟨_, _⟩⟩⟩⟩⟩⟩ <;> simp [operandsH2W1]

theorem operandsH4W_eq (k : U16 → U16 → U16 → U16 → Instr) (body : List Byte) :
    operandsH4W k body = if body.length = 8
      then some (k (joinBytes (body.getD 0 0) (body.getD 1 0)) (joinBytes (body.getD 2 0) (body.getD 3 0))
        (joinBytes (body.getD 4 0) (body.getD 5 0)) (joinBytes (body.getD 6 0) (body.getD 7 0)))
      else none := by
  rcases body with
    _ | ⟨_, _ | ⟨_, _ | ⟨_, _ | ⟨_, _ | ⟨_, _ | ⟨_, _ | ⟨_, _ | ⟨_, _ | ⟨_, _⟩⟩⟩⟩⟩⟩⟩⟩⟩ <;> simp [operandsH4W]

/-! ### Which packets are illegal -/

/-- R102: the conditions on operands, apart from the opcode's and the length's. -/
def illegalOperand (op : Byte) (body : List Byte) : Bool :=
  (op == 0xB0 && decide (2 ≤ (body.getD 0 0).toNat)) || (op == 0xB1 && decide (2 ≤ (body.getD 4 0).toNat))
    || (op == 0xB3 && decide (3 < (body.getD 0 0).toNat))

theorem illegalPacket_cons (op : Byte) (body : List Byte) : illegalPacket (op :: body) = true ↔
    reservedOpcode op = true ∨ body.length + 1 ≠ formatLength op body ∨ illegalOperand op body = true := by
  simp [illegalPacket, illegalOperand, or_assoc]

/-- R93: the opcodes of the 22 host operations. -/
def hostOpcodes : List Nat :=
  [0x81, 0x82, 0x83, 0x84, 0x85, 0x90, 0x91, 0x92, 0x93, 0x94, 0x95, 0x96, 0x97, 0xA0, 0xA1, 0xA2, 0xA3,
    0xB0, 0xB1, 0xB2, 0xB3, 0xF0]

/-- R93, R101: an opcode is reserved when no host operation has it. -/
theorem reservedOpcode_of_unlisted {op : Byte} (h : ∀ n ∈ hostOpcodes, op.toNat ≠ n) : reservedOpcode op = true := by
  simp only [hostOpcodes, List.forall_mem_cons] at h
  simp only [reservedOpcode, decide_eq_true_eq]
  omega

theorem packetLength_eq (op : Byte) (body : List Byte) : packetLength op (body.headD 0) (body.tail.headD 0) =
    if reservedOpcode op then none else some (formatLength op body) := by
  have h0 : body.headD 0 = body.getD 0 0 := by cases body <;> rfl
  have h1 : body.tail.headD 0 = body.getD 1 0 := by rcases body with _ | ⟨_, _ | ⟨_, _⟩⟩ <;> rfl
  rw [h0, h1]
  unfold packetLength
  split
  case h_23 =>
    have : reservedOpcode op = true := reservedOpcode_of_unlisted (by simp_all [hostOpcodes])
    rw [if_pos this]
  all_goals
    rename_i hop
    simp [reservedOpcode, formatLength, joinBytes_toNat, hop]

/-- R91, R101: the operation's fields are read exactly when the opcode is not reserved and the length is the one
its format fixes. -/
theorem decodeOperation_eq_none_iff (op : Byte) (body : List Byte) : decodeOperation op body = none ↔
    reservedOpcode op = true ∨ body.length + 1 ≠ formatLength op body := by
  unfold decodeOperation
  split
  case h_23 =>
    have : reservedOpcode op = true := reservedOpcode_of_unlisted (by simp_all [hostOpcodes])
    simp only [this, true_or]
  all_goals
    rename_i hop
    simp [reservedOpcode, formatLength, hop, operandsH0_eq, operandsH1_eq, operandsHN_eq, operandsH2W_eq,
      operandsH2W1_eq, operandsH4W_eq]

theorem opcode_beq (op c : Byte) : (op == c) = decide (op.toNat = c.toNat) := by
  simp [BitVec.toNat_inj, beq_eq_decide]

/-- R102: of an operation whose fields were read, the operands are legal unless R102 names them. -/
theorem wellFormed_of_decodeOperation {op : Byte} {body : List Byte} {i : Instr}
    (h : decodeOperation op body = some i) : i.wellFormed = false ↔ illegalOperand op body = true := by
  simp only [illegalOperand, opcode_beq]
  unfold decodeOperation at h
  split at h
  case h_23 => cases h
  all_goals
    rename_i hop
    simp only [operandsH0_eq, operandsH1_eq, operandsHN_eq, operandsH2W_eq, operandsH2W1_eq, operandsH4W_eq,
      Option.ite_none_right_eq_some, Option.some.injEq] at h
    obtain ⟨hlen, rfl⟩ := h
    simp [Instr.wellFormed, hop]
  case h_4 =>
    simp only [List.getD_eq_getElem?_getD, BitVec.ofNat_eq_ofNat] at hlen
    rw [joinBytes_toNat]
    omega
  case h_18 | h_19 => exact Iff.rfl

theorem decodePacket_cons (op : Byte) (body : List Byte) :
    decodePacket (op :: body) = (decodeOperation op body).filter Instr.wellFormed := rfl

/-- R101, R102: what the decoder refuses is what the rules list as illegal. -/
theorem decodePacket_eq_none_iff (bs : List Byte) : decodePacket bs = none ↔ illegalPacket bs = true := by
  cases bs with
  | nil => simp [decodePacket, illegalPacket]
  | cons op body =>
    rw [decodePacket_cons, illegalPacket_cons, ← or_assoc, ← decodeOperation_eq_none_iff]
    cases h : decodeOperation op body with
    | none => simp
    | some i => simp [Option.filter_some, ← wellFormed_of_decodeOperation h]

/-- R102: a problem is named for exactly the packets the decoder refuses. -/
theorem packetProblem_eq_none_iff (bs : List Byte) : packetProblem bs = none ↔ decodePacket bs ≠ none := by
  cases bs with
  | nil => simp [packetProblem, decodePacket]
  | cons op body =>
    have hd := decodeOperation_eq_none_iff op body
    rw [packetProblem, decodePacket_cons, packetLength_eq]
    by_cases hr : reservedOpcode op = true
    · simp [hd.2 (.inl hr), hr]
    · by_cases hl : body.length + 1 = formatLength op body
      · cases h : decodeOperation op body with
        | none => simp [hd, hr, hl] at h
        | some i =>
          by_cases hw : i.wellFormed = true
          · simp [hr, hl, hw]
          · simp [hr, hl, hw]
            split <;> simp
      · simp [hd.2 (.inr hl), hr, hl]

/-! ### What an illegal packet does -/

theorem step_packet {s : State} {bs : List Byte} {r : List HostInput} (ha : s.active = false)
    (hi : s.inbox = .packet bs :: r) : step s = stepPacket bs { s with inbox := r } := by
  simp [step, hi, ha]

theorem step_packetStepwise {s : State} {bs : List Byte} {r : List HostInput} (ha : s.active = false)
    (hi : s.inbox = .packetStepwise bs :: r) : step s = stepPacketStepwise bs { s with inbox := r } := by
  simp [step, hi, ha]

theorem stepPacket_illegal {bs : List Byte} (h : decodePacket bs = none) (s : State) :
    stepPacket bs s = .next (rejectIllegal s) := by
  simp [stepPacket, h]

theorem stepPacketStepwise_illegal {bs : List Byte} (h : decodePacket bs = none) (s : State) :
    stepPacketStepwise bs s = .next (rejectIllegal s) := by
  simp [stepPacketStepwise, h]

/-- R102: an illegal packet, shown either way, sets ILL and is taken from the inbox. -/
theorem step_illegal {s : State} {bs : List Byte} {r : List HostInput} (ha : s.active = false)
    (h : illegalPacket bs = true) (hi : s.inbox = .packet bs :: r ∨ s.inbox = .packetStepwise bs :: r) :
    step s = .next { s with inbox := r, ill := true } := by
  have hd := (decodePacket_eq_none_iff bs).2 h
  rcases hi with hi | hi
  · rw [step_packet ha hi, stepPacket_illegal hd]; rfl
  · rw [step_packetStepwise ha hi, stepPacketStepwise_illegal hd]; rfl

/-- Settles O16: the decoder refuses a packet for its opcode, its length or an operand R102 names, and a step with a
refused packet is `rejectIllegal`. -/
theorem illegalPacketsSetIllOnly : Obligations.IllegalPacketsSetIllOnly := by
  refine ⟨decodePacket_eq_none_iff, fun bs => ?_, fun s bs r ha h hi => step_illegal ha h hi⟩
  rw [packetProblem_eq_none_iff, Ne, decodePacket_eq_none_iff, Bool.not_eq_true]

/-! ### The table of R93 -/

/-- R93: a host opcode and a panel opcode lie on the two sides of 0x7F. -/
theorem opcodeOf_range (i : Instr) : if isPanel i then (opcodeOf i).toNat ≤ 0x7E else 0x80 ≤ (opcodeOf i).toNat := by
  cases i <;> simp [isPanel, opcodeOf]

/-- R91: the packet of WDATN carries as many Bytes as its count names. -/
theorem decodePacket_wdatn {l h : Byte} {ds : List Byte} (hds : ds.length = l.toNat + 256 * h.toNat) :
    decodePacket (0x84 :: l :: h :: ds) = some (.wdatn (h ++ l) ds) := by
  have hn : ds.length = (joinBytes l h).toNat := by rw [joinBytes_toNat, hds]
  have hop : decodeOperation 0x84 (l :: h :: ds) = operandsHN .wdatn (l :: h :: ds) := rfl
  rw [decodePacket_cons, hop, operandsHN, if_pos hn, Option.filter_some_pos]
  · rfl
  · simpa [Instr.wellFormed] using hn

/-- R94, R102: a colour operand is legal when it is White or Black. -/
theorem decodePacket_fill {c : Byte} (hc : c = 0 ∨ c = 1) : decodePacket [0xB0, c] = some (.fill c) := by
  rcases hc with rfl | rfl <;> rfl

theorem decodePacket_pixel (xl xh yl yh : Byte) {c : Byte} (hc : c = 0 ∨ c = 1) :
    decodePacket [0xB1, xl, xh, yl, yh, c] = some (.pixel (xh ++ xl) (yh ++ yl) c) := by
  rcases hc with rfl | rfl <;> rfl

/-- R102, R208: a rotation operand is legal up to 3. -/
theorem decodePacket_setrot {r : Byte} (hr : r.toNat ≤ 3) : decodePacket [0xB3, r] = some (.setrot r) := by
  have hop : decodeOperation 0xB3 [r] = some (.setrot r) := rfl
  rw [decodePacket_cons, hop, Option.filter_some_pos]
  simpa [Instr.wellFormed] using hr

/-- Settles O13: every packet without a condition on its operands decodes by the table alone; the four with one are
the lemmas above. -/
theorem packetsDecodeAsTabled : Obligations.PacketsDecodeAsTabled :=
  ⟨rfl, fun _ => rfl, fun _ => rfl, fun _ _ _ => decodePacket_wdatn, rfl, fun _ => rfl, fun _ => rfl, fun _ => rfl,
    fun _ => rfl, rfl, rfl, rfl, rfl, rfl, rfl, fun _ _ _ _ _ _ _ _ => rfl, rfl, fun _ => decodePacket_fill,
    fun xl xh yl yh _ => decodePacket_pixel xl xh yl yh, fun _ _ _ _ => rfl, fun _ => decodePacket_setrot, rfl,
    opcodeOf_range⟩

end Sys2Proof.Proofs
end

section
/-! PROOFS. The acceptance of a legal packet (R92): the latches (R22), the refusal under FAULT (R300), the
micro-program of a link operation (R121). -/

namespace Sys2Proof.Proofs

open Sys2Proof.Machine

/-- R22: the latches are all that loading an operation writes. -/
theorem latch_eq (i : Instr) (s : State) : latch i s =
    { s with opc := (latch i s).opc, a0 := (latch i s).a0, a1 := (latch i s).a1, a2 := (latch i s).a2,
             a3 := (latch i s).a3, payload := (latch i s).payload } := by
  cases i <;> rfl

/-- R45: the requests still to come have no part in the latches. -/
theorem latch_inbox_update (i : Instr) (s : State) (r : List HostInput) :
    latch i { s with inbox := r } = { latch i s with inbox := r } := by
  cases i <;> rfl

/-- R300: a legal link operation under FAULT loads its latches and sets REJ. -/
theorem execUnder_link_refused {i : Instr} {s : State} (hl : isLink i = true) (hw : i.wellFormed = true)
    (ha : s.active = false) (hf : s.fault = true) : execUnder Config.params i s = refuseLink (latch i s) := by
  simp [execUnder_link _ hl, linkOp, accept, ha, hw, hl, hf]

/-- R121: a legal link operation with no fault pending runs its micro-program. -/
theorem execUnder_link_runs {i : Instr} {s : State} (hl : isLink i = true) (hw : i.wellFormed = true)
    (ha : s.active = false) (hf : s.fault = false) : execUnder Config.params i s =
      runProgram Config.params (expand Config.params (latch i s)) (startProgram (latch i s)) := by
  rw [execUnder_link _ hl, linkOp, accept_through ha hw fun _ => hf]

/-- R22: a link operation leaves the latches of its acceptance, refused under FAULT, completed or faulted. -/
theorem latches_of_link {i : Instr} {s : State} (hl : isLink i = true) (hw : i.wellFormed = true)
    (ha : s.active = false) : (execUnder Config.params i s).latches = acceptedLatches i s.latches := by
  have hlatch := latch_latches (isPanel_of_isLink hl) s
  by_cases hf : s.fault = true
  · rw [execUnder_link_refused hl hw ha hf]
    exact hlatch
  · rcases exec_link_cases hl hw ha (by simpa using hf) with
      ⟨t, he, -, hc⟩ | ⟨pre, u, post, t, r, -, he, -, -, hc⟩
    all_goals
      rw [exec_eq] at he
      injection he with he
      rw [he, hc.latches]

/-- R22: a framebuffer operation or CLRF writes no latch after its acceptance. -/
theorem latches_of_local {i : Instr} {s : State} (hl : isLink i = false) (hp : isPanel i = false)
    (hw : i.wellFormed = true) (ha : s.active = false) :
    (execUnder Config.params i s).latches = acceptedLatches i s.latches := by
  rw [← latch_latches hp s]
  rcases local_cases Config.params hl hp s with ⟨ha', -⟩ | ⟨-, hw', -⟩ | ⟨-, -, -, he, -⟩ | ⟨-, -, he⟩
  · simp [ha] at ha'
  · simp [hw] at hw'
  · rw [he]; rfl
  · rw [he]; rfl

/-- R22, R92: whatever becomes of an accepted host operation, it leaves the latches of its acceptance. -/
theorem latches_of_accepted {i : Instr} {s : State} (hp : isPanel i = false) (hw : i.wellFormed = true)
    (ha : s.active = false) : (execUnder Config.params i s).latches = acceptedLatches i s.latches := by
  by_cases hl : isLink i = true
  · exact latches_of_link hl hw ha
  · exact latches_of_local (by simpa using hl) hp hw ha

theorem stepPacket_legal {bs : List Byte} {i : Instr} (h : decodePacket bs = some i) (s : State) :
    stepPacket bs s = exec i s := by
  simp [stepPacket, h]

/-- Settles O20: the clauses are those of `accept`, in its order, and the request's place in the inbox is seen by
none of them. -/
theorem acceptanceOrder : Obligations.AcceptanceOrder := by
  intro s bs r ha hi
  refine ⟨fun h => step_illegal ha h (.inl hi), fun i hd => ?_⟩
  obtain ⟨hp, hw⟩ := decodePacket_some hd
  have hstep : step s = exec i { s with inbox := r } := by rw [step_packet ha hi, stepPacket_legal hd]
  refine ⟨hstep, _, hstep.trans (exec_eq i _), latches_of_accepted hp hw ha, fun hl hf => ⟨?_, latch_eq i s⟩,
    fun hl hf => ?_⟩
  · rw [execUnder_link_refused (s := { s with inbox := r }) hl hw ha hf, latch_inbox_update]; rfl
  · rw [execUnder_link_runs (s := { s with inbox := r }) hl hw ha hf, latch_inbox_update]; rfl

end Sys2Proof.Proofs
end

section
/-! PROOFS. The command Bytes of the block's micro-programs are the listed ones (R96, R100). -/

namespace Sys2Proof.Proofs

open Sys2Proof.Machine

/-! ### The generators -/

@[simp] theorem onlyListedCommands_nil : onlyListedCommands [] = true := rfl

@[simp] theorem onlyListedCommands_cmd (b : Byte) (p : List Uop) :
    onlyListedCommands (.cmd b :: p) = ((decodePanel b).isSome && onlyListedCommands p) := rfl

@[simp] theorem onlyListedCommands_burst (bs : List Byte) (p : List Uop) :
    onlyListedCommands (.burst bs :: p) = onlyListedCommands p := rfl

@[simp] theorem onlyListedCommands_dly (t : Delay) (p : List Uop) :
    onlyListedCommands (.dly t :: p) = onlyListedCommands p := rfl

@[simp] theorem onlyListedCommands_append (p q : List Uop) :
    onlyListedCommands (p ++ q) = (onlyListedCommands p && onlyListedCommands q) := List.all_append

@[simp] theorem onlyListedCommands_regWrite (c : Byte) (ds : List Byte) :
    onlyListedCommands (regWrite c ds) = (decodePanel c).isSome := by
  simp [onlyListedCommands, regWrite]

@[simp] theorem onlyListedCommands_act (m : Byte) : onlyListedCommands (act m) = true := rfl

@[simp] theorem onlyListedCommands_pwrOnSeq : onlyListedCommands pwrOnSeq = true := rfl

@[simp] theorem onlyListedCommands_pwrOffSeq : onlyListedCommands pwrOffSeq = true := rfl

@[simp] theorem onlyListedCommands_ramArea (w : Window) : onlyListedCommands (ramArea w) = true := rfl

@[simp] theorem onlyListedCommands_windowAndPointer (w : Window) :
    onlyListedCommands (windowAndPointer w) = true := rfl

@[simp] theorem onlyListedCommands_setEmSeq (em : Byte) : onlyListedCommands (setEmSeq em) = true := rfl

@[simp] theorem onlyListedCommands_lutSeq (P : Params) (full : Bool) : onlyListedCommands (lutSeq P full) = true := rfl

@[simp] theorem onlyListedCommands_initDispSeq (P : Params) (em : Byte) :
    onlyListedCommands (initDispSeq P em) = true := by
  simp [initDispSeq, decodePanel]

@[simp] theorem onlyListedCommands_initFullSeq (P : Params) (em : Byte) :
    onlyListedCommands (initFullSeq P em) = true := by
  simp [initFullSeq]

@[simp] theorem onlyListedCommands_initPartSeq (P : Params) (em : Byte) :
    onlyListedCommands (initPartSeq P em) = true := by
  simp [initPartSeq, decodePanel]

/-- R181: the two streams add the two RAM-write commands to those of the gap and the re-pointing. -/
@[simp] theorem onlyListedCommands_dualStream (P : Params) (bs : List Byte) (gap rp : List Uop) :
    onlyListedCommands (dualStream P bs gap rp) =
      (onlyListedCommands gap && onlyListedCommands (if P.repointSecondBurst then rp else [])) := by
  simp [dualStream, decodePanel]

/-- R181: re-pointing, where it is asked for, is a window and its counter. -/
@[simp] theorem onlyListedCommands_repoint (P : Params) (w : Window) :
    onlyListedCommands (if P.repointSecondBurst then windowAndPointer w else []) = true := by
  split <;> rfl

theorem onlyListedCommands_updateSeq (P : Params) (fb : List Host.Cell) :
    onlyListedCommands (updateSeq P fb) = true := by
  simp [updateSeq, updFullSeq]

theorem onlyListedCommands_eraseSeq (P : Params) : onlyListedCommands (eraseSeq P) = true := by
  simp [eraseSeq, updFullSeq]

/-- R186: an empty rectangle has an empty micro-program. -/
theorem onlyListedCommands_updwinSeq (P : Params) (fb : List Host.Cell) (x y w h : U16) :
    onlyListedCommands (updwinSeq P fb x y w h) = true := by
  unfold updwinSeq
  split
  · rfl
  · simp [updwinRectSeq, updPartSeq]

/-! ### The micro-programs -/

/-- R100: of each sequencer and refresh operation, the generator of its micro-program sends listed commands only. -/
theorem onlyListedCommands_expand (P : Params) {i : Instr} (s : State) (h : Spec.sequenced i = true) :
    onlyListedCommands (expand P (latch i s)) = true := by
  cases i with
  | initdisp em => exact onlyListedCommands_initDispSeq P _
  | setem em => exact onlyListedCommands_setEmSeq _
  | initfull em => exact onlyListedCommands_initFullSeq P _
  | initpart em => exact onlyListedCommands_initPartSeq P _
  | updfull | updpart | pwron | pwroff | init => rfl
  | update => exact onlyListedCommands_updateSeq P _
  | updwin x y w h => exact onlyListedCommands_updwinSeq P _ _ _ _ _
  | erase => exact onlyListedCommands_eraseSeq P
  | _ => simp [Spec.sequenced] at h

/-- R100, R132: WCMD sends its Byte as a command, whichever Byte it is. -/
theorem completesWith_wcmd (b : Byte) : CompletesWith (.wcmd b) 1 (fun _ => [.cmd b]) id := by
  intro s ha hf hresp
  have hp : expand Config.params (latch (.wcmd b) s) = [.cmd b] := by
    show [Uop.cmd (lo (byteOperand b))] = _
    rw [lo_byteOperand]
  obtain ⟨t, he, hc⟩ := exec_completed (i := .wcmd b) rfl rfl ha hf (by rw [hp]; exact hresp)
  rw [hp] at hc
  exact ⟨t, he, hc⟩

/-- Settles O40: each generator sends listed commands only, and WCMD's micro-program is the one CMD of its Byte. -/
theorem onlyListedPanelOpcodes : Obligations.OnlyListedPanelOpcodes :=
  ⟨fun P _ s h => onlyListedCommands_expand P s h, completesWith_wcmd⟩

end Sys2Proof.Proofs
end

section
/-! PROOFS. The busy wait's two ends (R129, R292), and a link operation whose µops are known one by one (R121). -/

namespace Sys2Proof.Proofs

open Sys2Proof.Machine

/-! ### The two ends of a busy wait -/

/-- R129: the state a wait leaves whose sample `k` is the first to find BUSY low. -/
def waited (log : Bool) (k : Nat) (s : State) : State := sampleBusy (polled log k { s with pollcnt := 0 })

/-- R292: the state a wait leaves that reaches its bound. -/
def expired (P : Params) (log : Bool) (s : State) : State :=
  faultEntry (polled log P.busyMaxPolls { s with pollcnt := 0 })

theorem firstReady_congr {s t : State} {k : Nat} (hb : t.busy = s.busy) (hd : t.draws = s.draws)
    (h : FirstReady s k) : FirstReady t k := by
  have same := upcomingBusy_congr hb hd
  exact ⟨fun i hi => (same i).trans (h.1 i hi), (same k).trans h.2⟩

theorem stuckBusy_congr {P : Params} {s t : State} (hb : t.busy = s.busy) (hd : t.draws = s.draws)
    (h : StuckBusy P s) : StuckBusy P t :=
  fun i hi => (upcomingBusy_congr hb hd i).trans (h i hi)

theorem waitBusy_waited {P : Params} (log : Bool) {s : State} {k : Nat} (h : FirstReady s k)
    (hk : k < P.busyMaxPolls) : waitBusy P log s = .done (waited log k s) := by
  obtain ⟨hall, hlast⟩ := firstReady_congr (t := { s with pollcnt := 0 }) rfl rfl h
  exact pollLoop_done hk hall hlast

theorem waitBusy_expired {P : Params} (log : Bool) {s : State} (h : StuckBusy P s) :
    waitBusy P log s = .raised (expired P log s) :=
  pollLoop_raised (stuckBusy_congr (t := { s with pollcnt := 0 }) rfl rfl h)

/-- R129: a wait appends its asserted samples and the one that is 0. -/
theorem trace_waited (log : Bool) {s : State} {k : Nat} (h : FirstReady s k) :
    (waited log k s).trace = s.trace ++ List.replicate k (.poll true) ++ [.poll false] := by
  have hlast : busyLevel (polled log k { s with pollcnt := 0 }) = false := by
    rw [busyLevel_eq, upcomingBusy_polled]
    exact h.2
  rw [waited, trace_sampleBusy, hlast, trace_polled]
  rfl

@[simp] theorem waited_pins (log : Bool) (k : Nat) (s : State) : (waited log k s).pins = s.pins := by
  simp [waited, polled]

/-- R129, R124: a precheck that met BUSY logs it. -/
@[simp] theorem waited_stall (log : Bool) (k : Nat) (s : State) :
    (waited log k s).stall = (s.stall || (log && decide (0 < k))) := by
  simp [waited, polled]

theorem trace_expired (P : Params) (log : Bool) (s : State) :
    (expired P log s).trace = s.trace ++ List.replicate P.busyMaxPolls (.poll true) := by
  rw [expired, ← trace_polled log]
  rfl

@[simp] theorem expired_pins (P : Params) (log : Bool) (s : State) :
    (expired P log s).pins = { s.pins with cs := true, dc := true, sck := false } := rfl

theorem expired_stall {P : Params} (hP : 1 ≤ P.busyMaxPolls) (log : Bool) (s : State) :
    (expired P log s).stall = (s.stall || log) := by
  have : 0 < P.busyMaxPolls := hP
  simp [expired, polled, this]

/-! ### The trace of a link operation's run -/

@[simp] theorem trace_advance (s : State) : (advance s).trace = s.trace := rfl

@[simp] theorem trace_startProgram (s : State) : (startProgram s).trace = s.trace := rfl

@[simp] theorem trace_finishProgram (s : State) : (finishProgram s).trace = s.trace := rfl

@[simp] theorem trace_latch (i : Instr) (s : State) : (latch i s).trace = s.trace := by simp [State.trace]

theorem trace_sendCommand (b : Byte) (s : State) : (sendCommand b s).trace = s.trace ++ [.cmd b] := trace_emit _ _

/-! ### A micro-program performed µop by µop -/

theorem progress_of_perform {P : Params} {u : Uop} {s t : State} (h : perform P u s = .done t) :
    Progress P [u] s (advance t) := by
  rcases perform_cases P u s with ⟨r, hr, hp⟩ | ⟨r, hr, -⟩
  · rw [h] at hr
    cases hr
    exact hp
  · rw [h] at hr
    cases hr

theorem raised_of_perform {P : Params} {u : Uop} {s t : State} (h : perform P u s = .raised t) : Raised P u s t := by
  rcases perform_cases P u s with ⟨r, hr, -⟩ | ⟨r, hr, hR⟩
  · rw [h] at hr
    cases hr
  · rw [h] at hr
    cases hr
    exact hR

theorem performAll_cons {P : Params} {u : Uop} {us : List Uop} {s t : State} (h : perform P u s = .done t) :
    performAll P (u :: us) s = performAll P us (advance t) := by
  rw [performAll, h]

/-- R121: µops that complete have the effect of each, and leave the engine at the rest of the micro-program. -/
theorem performAll_some {P : Params} {us : List Uop} {s m : State} (h : performAll P us s = some m) :
    Progress P us s m ∧ ∀ vs, runProgram P (us ++ vs) s = runProgram P vs m := by
  induction us generalizing s with
  | nil =>
    cases h
    exact ⟨.refl P _, fun _ => rfl⟩
  | cons u us ih =>
    rw [performAll] at h
    split at h
    · rename_i t ht
      obtain ⟨hp, hrun⟩ := ih h
      refine ⟨(progress_of_perform ht).trans hp, fun vs => ?_⟩
      rw [List.cons_append, runProgram, ht]
      exact hrun vs
    · cases h

section
variable {i : Instr} {s : State} (hl : isLink i = true) (hw : i.wellFormed = true) (ha : s.active = false)
  (hf : s.fault = false)

include hl hw ha hf

/-- R121: a link operation whose µops all complete. -/
theorem exec_performed {p : List Uop} {t : State} (he : expand Config.params (latch i s) = p)
    (ht : performAll Config.params p (startProgram (latch i s)) = some t) :
    exec i s = .next (finishProgram t) ∧ Completed i (linkEvents p) (shadowsAfter p s.shadows) s (finishProgram t) := by
  obtain ⟨hp, hrun⟩ := performAll_some ht
  refine ⟨?_, completed_of_progress hl (he ▸ rstAfter_expand _ _) hp⟩
  rw [exec_eq, execUnder_link_runs hl hw ha hf, he, ← List.append_nil p, hrun]
  rfl

/-- R296, R297: a link operation of which a µop raises after those before it completed. -/
theorem exec_raised {pre post : List Uop} {u : Uop} {m r : State}
    (he : expand Config.params (latch i s) = pre ++ u :: post)
    (hm : performAll Config.params pre (startProgram (latch i s)) = some m)
    (hr : perform Config.params u m = .raised r) :
    exec i s = .next r ∧ FaultedAt i pre.length (linkEvents pre) (shadowsAfter pre s.shadows) s r := by
  obtain ⟨hp, hrun⟩ := performAll_some hm
  refine ⟨?_, faultedAt_of_raised hl he hp (raised_of_perform hr)⟩
  rw [exec_eq, execUnder_link_runs hl hw ha hf, he, hrun, runProgram, hr]

end

end Sys2Proof.Proofs
end

section
/-! PROOFS. The µops at the pins (R122 to R128): where each waveform ends, and what the panel samples along it. -/

namespace Sys2Proof.Proofs

open Sys2Proof.Machine

/-! ### A run of clocked bits -/

/-- R127: the pin states of a run of bits, each clocked from the pins `p`. -/
def bitWaves (vs : List Bool) (p : Pins) : List Pins := vs.flatMap fun v => bitWave v p

/-- R127: the edge before the first pin state is seen by SCK alone. -/
theorem sampledBits_congr {p q : Pins} (h : p.sck = q.sck) (w : List Pins) : sampledBits p w = sampledBits q w := by
  cases w with
  | nil => rfl
  | cons r w => simp only [sampledBits, h]

/-- R127: each clocked bit is sampled once, at its rising edge, with the levels of DC and CS there. -/
theorem sampledBits_bitWaves {p : Pins} (hp : p.sck = false) (vs : List Bool) (w : List Pins) :
    sampledBits p (bitWaves vs p ++ w) = vs.map (fun v => (v, p.dc, p.cs)) ++ sampledBits p w := by
  induction vs with
  | nil => rfl
  | cons v vs ih =>
    have hbit : sampledBits p (bitWaves (v :: vs) p ++ w) =
        (v, p.dc, p.cs) :: sampledBits { p with mosi := v, sck := false } (bitWaves vs p ++ w) := by
      simp [bitWaves, bitWave, sampledBits, hp]
    rw [hbit, sampledBits_congr hp.symm, ih]
    rfl

theorem mem_bitWaves {vs : List Bool} {p q : Pins} (h : q ∈ bitWaves vs p) : q.cs = p.cs ∧ q.dc = p.dc := by
  obtain ⟨v, -, hq⟩ := List.mem_flatMap.1 h
  simp only [bitWave, List.mem_cons, List.not_mem_nil, or_false] at hq
  rcases hq with rfl | rfl | rfl <;> exact ⟨rfl, rfl⟩

/-- R128: CS does not move while bits are clocked. -/
theorem csFalls_bitWaves (vs : List Bool) (p : Pins) (w : List Pins) :
    Spec.csFalls p.cs (bitWaves vs p ++ w) = Spec.csFalls p.cs w := by
  induction vs with
  | nil => rfl
  | cons v vs ih => simpa [bitWaves, bitWave, Spec.csFalls] using ih

/-- R127, R68: a Byte's bits in the order they are sent, under CS low. -/
theorem map_msbFirst (dc : Bool) (b : Byte) :
    (msbFirst b).map (fun v => (v, dc, false)) = Spec.bitsSent dc b := by
  simp [msbFirst, Spec.bitsSent]

/-! ### The waveforms of a transfer and of a burst -/

/-- R124, R125, R128: DC to its level, CS low, the Byte's bits, CS high, DC back to data-select. -/
theorem xferWave_eq (dc : Bool) (b : Byte) (p : Pins) : xferWave dc b p =
    { p with dc := dc } :: { p with dc := dc, cs := false } ::
      (bitWaves (msbFirst b) { p with dc := dc, cs := false } ++
        [xferByte b { p with dc := dc }, { xferByte b { p with dc := dc } with dc := true }]) := rfl

/-- R126: the pins after a burst's Bytes, which move MOSI only once SCK is back at 0. -/
theorem foldl_shiftByte {p : Pins} (hp : p.sck = false) (bs : List Byte) :
    ∃ m, bs.foldl (fun r b => shiftByte b r) p = { p with mosi := m } := by
  induction bs generalizing p with
  | nil => exact ⟨p.mosi, rfl⟩
  | cons b bs ih =>
    obtain ⟨m, hm⟩ := ih (p := shiftByte b p) rfl
    exact ⟨m, by rw [List.foldl_cons, hm, shiftByte_eq, hp]⟩

/-- R126, R128: CS low, the bits of every Byte, CS high. -/
theorem burstWave_eq {bs : List Byte} (hbs : bs ≠ []) {p : Pins} (hp : p.sck = false) : ∃ m,
    burstWave bs p = { p with dc := true, cs := false } ::
      (bitWaves (bs.flatMap msbFirst) { p with dc := true, cs := false } ++
        [{ p with dc := true, mosi := m, cs := true }]) := by
  cases bs with
  | nil => contradiction
  | cons b bs =>
    obtain ⟨m, hm⟩ := foldl_shiftByte (p := { p with dc := true, cs := false }) hp (b :: bs)
    refine ⟨m, ?_⟩
    rw [burstWave, hm, bitWaves, List.flatMap_assoc]
    · rfl
    · simp

/-! ### Where a waveform ends -/

theorem xferWave_getLastD (dc : Bool) (b : Byte) (p d : Pins) :
    (xferWave dc b p).getLastD d = { xferByte b { p with dc := dc } with dc := true } := by
  rw [xferWave_eq]
  simp [List.getLast?_cons]

theorem burstWave_getLastD (b : Byte) (bs : List Byte) (p d : Pins) : (burstWave (b :: bs) p).getLastD d =
    { (b :: bs).foldl (fun r c => shiftByte c r) { p with dc := true, cs := false } with cs := true } := by
  rw [burstWave, List.getLastD_concat]
  simp

theorem waitBusy_pins {P : Params} {log : Bool} {s t : State} (h : waitBusy P log s = .done t) :
    t.pins = s.pins := by
  rcases waitBusy_cases P log s with ⟨k, -, -, -, he⟩ | ⟨-, he⟩
  · rw [he] at h
    cases h
    simp [polled]
  · rw [he] at h
    cases h

/-- R126: a burst's Bytes are shifted one after another, then CS rises. -/
theorem burstBytes_pins_eq (bs : List Byte) (s : State) :
    (burstBytes bs s).pins = { bs.foldl (fun r b => shiftByte b r) s.pins with cs := true } := by
  induction bs generalizing s with
  | nil => rfl
  | cons b bs ih => exact ih _

/-- R120: the waveform of a µop ends at the pins the µop leaves. -/
theorem perform_pins {P : Params} {u : Uop} {s t : State} (h : perform P u s = .done t) :
    t.pins = (Uop.wave s.pins u).getLastD s.pins := by
  cases u with
  | wait => exact waitBusy_pins h
  | cmd b =>
    rw [perform] at h
    split at h
    · rename_i m hm
      cases h
      rw [Uop.wave, xferWave_getLastD, ← waitBusy_pins hm]
      rfl
    · cases h
  | burst bs =>
    cases h
    cases bs with
    | nil => rfl
    | cons b bs =>
      rw [Uop.wave, burstWave_getLastD]
      exact burstBytes_pins_eq _ _
  | dat b =>
    cases h
    rw [Uop.wave, xferWave_getLastD]
    rfl
  | rst v | dly d | sh a =>
    cases h
    simp [Uop.wave]

/-! ### What the panel samples along a waveform -/

theorem sampledBits_xferWave {p : Pins} (hp : p.sck = false) (dc : Bool) (b : Byte) :
    sampledBits p (xferWave dc b p) = Spec.bitsSent dc b := by
  rw [xferWave_eq]
  simp [sampledBits, sampledBits_bitWaves, map_msbFirst, hp]

theorem csFalls_xferWave {p : Pins} (hp : p.cs = true) (dc : Bool) (b : Byte) :
    Spec.csFalls p.cs (xferWave dc b p) = 1 := by
  have hbits := csFalls_bitWaves (msbFirst b) { p with dc := dc, cs := false }
  rw [xferWave_eq]
  simp [Spec.csFalls, hp, hbits]

/-- R124, R125: DC holds its level throughout a transfer, and returns to data-select with CS high. -/
theorem mem_xferWave {dc : Bool} {b : Byte} {p q : Pins} (h : q ∈ xferWave dc b p) :
    q.dc = dc ∨ (q.dc = true ∧ q.cs = true) := by
  rw [xferWave_eq] at h
  simp only [List.mem_cons, List.mem_append, List.not_mem_nil, or_false] at h
  rcases h with rfl | rfl | h | rfl | rfl
  · exact .inl rfl
  · exact .inl rfl
  · exact .inl (mem_bitWaves h).2
  · exact .inl rfl
  · exact .inr ⟨rfl, rfl⟩

theorem sampledBits_burstWave {p : Pins} (hp : p.sck = false) (bs : List Byte) :
    sampledBits p (burstWave bs p) = bs.flatMap (Spec.bitsSent true) := by
  by_cases hbs : bs = []
  · rw [hbs]; rfl
  · obtain ⟨m, hw⟩ := burstWave_eq hbs hp
    rw [hw]
    simp [sampledBits, sampledBits_bitWaves, List.map_flatMap, map_msbFirst, hp]

theorem csFalls_burstWave {p : Pins} (hp : LinkIdle p) {bs : List Byte} (hbs : bs ≠ []) :
    Spec.csFalls p.cs (burstWave bs p) = 1 := by
  obtain ⟨hcs, -, hsck⟩ := hp
  obtain ⟨m, hw⟩ := burstWave_eq hbs hsck
  have hbits := csFalls_bitWaves (bs.flatMap msbFirst) { p with dc := true, cs := false }
  rw [hw]
  simp [Spec.csFalls, hcs, hbits]

theorem dc_of_mem_burstWave {p q : Pins} (hp : p.sck = false) {bs : List Byte} (h : q ∈ burstWave bs p) :
    q.dc = true := by
  by_cases hbs : bs = []
  · rw [hbs] at h; cases h
  · obtain ⟨m, hw⟩ := burstWave_eq hbs hp
    simp only [hw, List.mem_cons, List.mem_append, List.not_mem_nil, or_false] at h
    rcases h with rfl | h | rfl
    · rfl
    · exact (mem_bitWaves h).2
    · rfl

/-- Settles O28: a CMD and a DAT are a transfer each at their level of DC, and each waveform is bits clocked
between a fall and a rise of CS. -/
theorem wavesCarryTheBytes : Obligations.WavesCarryTheBytes := by
  refine ⟨fun P u s t => perform_pins, fun p hp => ?_⟩
  have ⟨hcs, _, hsck⟩ := hp
  refine ⟨fun b => ⟨sampledBits_xferWave hsck false b, csFalls_xferWave hcs false b, fun q hq hlow => ?_⟩,
    fun b => ⟨sampledBits_xferWave hsck true b, csFalls_xferWave hcs true b,
      fun q hq => (mem_xferWave hq).elim id And.left⟩,
    fun bs => ⟨sampledBits_burstWave hsck bs, csFalls_burstWave hp, fun h => by rw [h]; rfl,
      fun q hq => dc_of_mem_burstWave hsck hq⟩⟩
  rcases mem_xferWave hq with h | ⟨-, h⟩
  · exact h
  · simp [hlow] at h

end Sys2Proof.Proofs
end

section
/-! PROOFS. The transport operations that wait for the panel (R131, R132, R135). -/

namespace Sys2Proof.Proofs

open Sys2Proof.Machine

/-! ### WAITB -/

/-- Settles O27: the one µop of WAITB is the wait. -/
theorem waitbOperation : Obligations.WaitbOperation := by
  refine ⟨⟨rfl, rfl⟩, fun s ha hf => ⟨fun k hk hlt => ?_, fun hs => ?_⟩⟩
  · have hready : FirstReady (startProgram (latch .waitb s)) k := firstReady_congr (by simp) (by simp) hk
    have hwait := waitBusy_waited false hready hlt
    obtain ⟨he, hc⟩ := exec_performed (i := .waitb) rfl rfl ha hf rfl (performAll_cons hwait)
    exact ⟨_, he, hc, by simp [trace_waited false hready], by simp, by simp⟩
  · have hstuck : StuckBusy Config.params (startProgram (latch .waitb s)) :=
      stuckBusy_congr (by simp) (by simp) hs
    have hwait := waitBusy_expired false hstuck
    obtain ⟨he, hc⟩ := exec_raised (i := .waitb) (pre := []) rfl rfl ha hf rfl rfl hwait
    exact ⟨_, he, hc, by simp [trace_expired], by simp [expired_stall params_wf.polls]⟩

/-! ### WCMD -/

/-- R132: the micro-program of WCMD is the one CMD of its Byte. -/
theorem expand_wcmd (P : Params) (b : Byte) (s : State) : expand P (latch (.wcmd b) s) = [.cmd b] := by
  show [Uop.cmd (lo (byteOperand b))] = _
  rw [lo_byteOperand]

/-- R124: the Byte is sent once the precheck has found BUSY low. -/
theorem perform_cmd_done {P : Params} (b : Byte) {s t : State} (h : waitBusy P true s = .done t) :
    perform P (.cmd b) s = .done (sendCommand b t) := by
  rw [perform, h]

/-- R124: a precheck that expires sends no Byte. -/
theorem perform_cmd_raised {P : Params} (b : Byte) {s t : State} (h : waitBusy P true s = .raised t) :
    perform P (.cmd b) s = .raised t := by
  rw [perform, h]

/-- Settles O25: the one µop of WCMD is the CMD of its Byte, with its precheck. -/
theorem wcmdOperation : Obligations.WcmdOperation := by
  refine ⟨fun b => ⟨rfl, rfl⟩, fun b s ha hf => ⟨fun k hk hlt => ?_, fun hs => ?_⟩⟩
  · have hready : FirstReady (startProgram (latch (.wcmd b) s)) k := firstReady_congr (by simp) (by simp) hk
    have hcmd := perform_cmd_done b (waitBusy_waited true hready hlt)
    obtain ⟨he, hc⟩ := exec_performed (i := .wcmd b) rfl rfl ha hf (expand_wcmd _ b s) (performAll_cons hcmd)
    exact ⟨_, he, hc, by simp [trace_sendCommand, trace_waited true hready], by simp [sendCommand]⟩
  · have hstuck : StuckBusy Config.params (startProgram (latch (.wcmd b) s)) :=
      stuckBusy_congr (by simp) (by simp) hs
    have hcmd := perform_cmd_raised b (waitBusy_expired true hstuck)
    obtain ⟨he, hc⟩ := exec_raised (i := .wcmd b) (pre := []) rfl rfl ha hf (expand_wcmd _ b s) rfl hcmd
    exact ⟨_, he, hc, by simp [trace_expired], by simp [expired_stall params_wf.polls]⟩

/-! ### RESET -/

/-- R131: the pulse of the reset pin with its two holds, the µops of RESET before its wait. -/
def pulseSeq : List Uop := [.rst false, .dly .rstLow, .rst true, .dly .rstSettle]

/-- R131: the state the pulse leaves. -/
def pulsed (s : State) : State :=
  advance (emit (.dly .rstSettle) (advance (rstUop true (advance (emit (.dly .rstLow) (advance (rstUop false s)))))))

theorem performAll_pulseSeq (P : Params) (s : State) : performAll P pulseSeq s = some (pulsed s) := rfl

theorem performAll_resetSeq {P : Params} {s t : State} (h : perform P .wait (pulsed s) = .done t) :
    performAll P resetSeq s = some (advance t) := performAll_cons h

@[simp] theorem pulsed_pins (s : State) : (pulsed s).pins = { s.pins with rst := true } := by simp [pulsed]

@[simp] theorem pulsed_stall (s : State) : (pulsed s).stall = s.stall := by simp [pulsed]

@[simp] theorem pulsed_busy (s : State) : (pulsed s).busy = s.busy := by simp [pulsed]

@[simp] theorem pulsed_draws (s : State) : (pulsed s).draws = s.draws := by simp [pulsed]

theorem trace_pulsed (s : State) : (pulsed s).trace = s.trace ++ Spec.panelReset := by
  simp [State.trace, pulsed, Spec.panelReset]

/-- Settles O24: RESET is the pulse, which samples nothing, and then the wait. -/
theorem resetOperation : Obligations.ResetOperation := by
  refine ⟨⟨rfl, rfl⟩, params_wf.rstLow, fun s ha hf => ⟨fun k hk hlt => ?_, fun hs => ?_⟩⟩
  · have hready : FirstReady (pulsed (startProgram (latch .reset s))) k :=
      firstReady_congr (by simp) (by simp) hk
    have hwait := waitBusy_waited false hready hlt
    obtain ⟨he, hc⟩ := exec_performed (i := .reset) rfl rfl ha hf rfl (performAll_resetSeq hwait)
    exact ⟨_, he, hc, by simp [trace_waited false hready, trace_pulsed], by simp, by simp⟩
  · have hstuck : StuckBusy Config.params (pulsed (startProgram (latch .reset s))) :=
      stuckBusy_congr (by simp) (by simp) hs
    have hwait := waitBusy_expired false hstuck
    obtain ⟨he, hc⟩ := exec_raised (i := .reset) (u := .wait) rfl rfl ha hf rfl (performAll_pulseSeq _ _) hwait
    exact ⟨_, he, hc, by simp [trace_expired, trace_pulsed], by simp [expired_stall params_wf.polls], by simp⟩

end Sys2Proof.Proofs
end

section
/-! PROOFS. Micro-programs in the spec's terms: the link events of each sequencer and refresh generator as the
commands and data of R150 to R158 and R181 to R188, its shadow writes, its busy waits. -/

namespace Sys2Proof.Proofs

open Sys2Proof.Machine

/-! ### Commands with their data -/

@[simp] theorem commands_nil : Spec.commands [] = [] := rfl

theorem commands_cons (c : Byte × List Byte) (l : List (Byte × List Byte)) :
    Spec.commands (c :: l) = Spec.command c ++ Spec.commands l := rfl

theorem commands_append (l m : List (Byte × List Byte)) :
    Spec.commands (l ++ m) = Spec.commands l ++ Spec.commands m := List.flatMap_append

/-- R95: the data Bytes after a command, newest first, belong to it. -/
theorem commandsRev_command (c : Byte × List Byte) (es : List Event) :
    commandsRev ((Spec.command c).reverse ++ es) = c :: commandsRev es := by
  obtain ⟨b, ds⟩ := c
  induction ds using List.reverseRecOn with
  | nil => rfl
  | append_singleton ds d ih =>
    have hlast : (Spec.command (b, ds ++ [d])).reverse = .dat d :: (Spec.command (b, ds)).reverse := by
      simp [Spec.command]
    rw [hlast, List.cons_append, commandsRev, ih]

theorem commandsRev_commands (l : List (Byte × List Byte)) (es : List Event) :
    commandsRev ((Spec.commands l).reverse ++ es) = l.reverse ++ commandsRev es := by
  induction l generalizing es with
  | nil => rfl
  | cons c l ih => simp [commands_cons, ih, commandsRev_command]

/-- R95: the commands of a trace are those it was written from. -/
@[simp] theorem commandsOf_commands (l : List (Byte × List Byte)) : commandsOf (Spec.commands l) = l := by
  have h := commandsRev_commands l []
  rw [List.append_nil] at h
  simp [commandsOf, h, commandsRev]

/-- R95: a hold between two commands is no part of either. -/
theorem commandsOf_commands_dly (l m : List (Byte × List Byte)) (d : Delay) :
    commandsOf (Spec.commands l ++ .dly d :: Spec.commands m) = l ++ m := by
  have h := commandsRev_commands l []
  rw [List.append_nil] at h
  simp [commandsOf, commandsRev_commands, commandsRev, h]

/-! ### The generators of the sequencer -/

/-- R151, R153: what a window and the counter at its start are sent as. -/
def windowCommands (w : Window) : List (Byte × List Byte) :=
  [(0x44, [w.xs, w.xe]), (0x45, [lo w.ys, hi w.ys, lo w.ye, hi w.ye]), (0x4E, [w.xs]), (0x4F, [lo w.ys, hi w.ys])]

theorem linkEvents_windowAndPointer (w : Window) :
    linkEvents (windowAndPointer w) = Spec.commands (windowCommands w) := rfl

/-- R152: the table's rows, each the clamped mode and the full-panel window of that mode. -/
theorem entryMode_eq (em : Byte) : Spec.entryMode em =
    (0x11, [(clampEntryMode em).setWidth 8]) :: windowCommands (entryWindow (clampEntryMode em)) := by
  rcases clampEntryMode_cases em with ⟨h, hc⟩ | ⟨h, hc⟩ | ⟨h, hc⟩ | ⟨h, hc⟩
  · rw [Spec.entryMode, h, hc]; rfl
  · rw [Spec.entryMode, h, hc]; rfl
  · rw [Spec.entryMode, h, hc]; rfl
  · obtain ⟨n, hn⟩ := Nat.exists_eq_add_of_le' h
    rw [Spec.entryMode, hn, hc]; rfl

/-- R152: the shadows of the table's rows. -/
theorem entryShadows_eq (em : Byte) (h : Shadows) : Spec.entryShadows em h =
    { h with emv := true, em := clampEntryMode em, winv := true, win := entryWindow (clampEntryMode em) } := by
  rcases clampEntryMode_cases em with ⟨hm, hc⟩ | ⟨hm, hc⟩ | ⟨hm, hc⟩ | ⟨hm, hc⟩
  · rw [Spec.entryShadows, hm, hc]; rfl
  · rw [Spec.entryShadows, hm, hc]; rfl
  · rw [Spec.entryShadows, hm, hc]; rfl
  · obtain ⟨n, hn⟩ := Nat.exists_eq_add_of_le' hm
    rw [Spec.entryShadows, hn, hc]; rfl

theorem linkEvents_setEmSeq (em : Byte) : linkEvents (setEmSeq em) = Spec.commands (Spec.entryMode em) := by
  rw [entryMode_eq]; rfl

theorem shadowsAfter_setEmSeq (em : Byte) (h : Shadows) : shadowsAfter (setEmSeq em) h = Spec.entryShadows em h := by
  rw [entryShadows_eq]; rfl

theorem waitCount_setEmSeq (em : Byte) : waitCount (setEmSeq em) = 5 := rfl

theorem linkEvents_regWrite_eq_command (c : Byte) (ds : List Byte) :
    linkEvents (regWrite c ds) = Spec.command (c, ds) := linkEvents_regWrite c ds

theorem linkEvents_ramArea_fullWindow :
    linkEvents (ramArea fullWindow) = Spec.commands [(0x44, [0, 15]), (0x45, [0, 0, 249, 0])] := rfl

theorem linkEvents_initDispSeq (P : Params) (em : Byte) :
    linkEvents (initDispSeq P em) = Spec.commands (Spec.initDisplay P em) := by
  simp only [initDispSeq, Spec.initDisplay, linkEvents_append, linkEvents_regWrite_eq_command,
    linkEvents_ramArea_fullWindow, linkEvents_setEmSeq, commands_append, commands_cons, commands_nil,
    List.append_assoc, List.append_nil]

/-- R154: the fixed window is overwritten by the entry mode's. -/
theorem shadowsAfter_initDispSeq (P : Params) (em : Byte) (h : Shadows) :
    shadowsAfter (initDispSeq P em) h = Spec.entryShadows em h := by
  simp only [initDispSeq, shadowsAfter_append, shadowsAfter_regWrite, shadowsAfter_setEmSeq, entryShadows_eq]
  rfl

theorem waitCount_ramArea (w : Window) : waitCount (ramArea w) = 2 := rfl

theorem waitCount_initDispSeq (P : Params) (em : Byte) : waitCount (initDispSeq P em) = 16 := by
  simp only [initDispSeq, waitCount_append, waitCount_regWrite, waitCount_ramArea, waitCount_setEmSeq]

/-- R163: the multiplexer sends the table it selects whole. -/
theorem linkEvents_lutSeq (P : Params) (full : Bool) :
    linkEvents (lutSeq P full) = Spec.command (0x32, if full then P.lutFull else P.lutPart) := by
  simp [lutSeq, linkEvents, Uop.linkEvents, Spec.command]

theorem linkEvents_pwrOnSeq : linkEvents pwrOnSeq = Spec.commands [(0x22, [0xC0]), (0x20, [])] := rfl

theorem linkEvents_initFullSeq (P : Params) (em : Byte) :
    linkEvents (initFullSeq P em) = Spec.commands (Spec.initFull P em) := by
  simp only [initFullSeq, Spec.initFull, linkEvents_append, linkEvents_initDispSeq, linkEvents_lutSeq,
    linkEvents_pwrOnSeq, commands_append, commands_cons, commands_nil, List.append_assoc, List.append_nil, if_true]

theorem linkEvents_initPartSeq (P : Params) (em : Byte) :
    linkEvents (initPartSeq P em) = Spec.commands (Spec.initPart P em) := by
  simp only [initPartSeq, Spec.initPart, linkEvents_append, linkEvents_initDispSeq, linkEvents_regWrite_eq_command,
    linkEvents_lutSeq, linkEvents_pwrOnSeq, commands_append, commands_cons, commands_nil, List.append_assoc,
    List.append_nil, Bool.false_eq_true, if_false]

/-- R157: the table is recorded in LUTSEL, the activation in PWR. -/
theorem shadowsAfter_initFullSeq (P : Params) (em : Byte) (h : Shadows) :
    shadowsAfter (initFullSeq P em) h = { Spec.entryShadows em h with lutsel := 1, pwr := true } := by
  simp only [initFullSeq, shadowsAfter_append, shadowsAfter_initDispSeq]
  rfl

/-- R158: the VCOM override has no shadow. -/
theorem shadowsAfter_initPartSeq (P : Params) (em : Byte) (h : Shadows) :
    shadowsAfter (initPartSeq P em) h = { Spec.entryShadows em h with lutsel := 2, pwr := true } := by
  simp only [initPartSeq, shadowsAfter_append, shadowsAfter_initDispSeq, shadowsAfter_regWrite]
  rfl

theorem waitCount_lutSeq_pwrOnSeq (P : Params) (full : Bool) :
    waitCount (lutSeq P full) + waitCount pwrOnSeq = 4 := rfl

theorem waitCount_initFullSeq (P : Params) (em : Byte) : waitCount (initFullSeq P em) = 20 := by
  simp only [initFullSeq, waitCount_append, waitCount_initDispSeq, Nat.add_assoc, waitCount_lutSeq_pwrOnSeq]

theorem waitCount_initPartSeq (P : Params) (em : Byte) : waitCount (initPartSeq P em) = 21 := by
  simp only [initPartSeq, waitCount_append, waitCount_initDispSeq, waitCount_regWrite, Nat.add_assoc,
    waitCount_lutSeq_pwrOnSeq]

/-! ### The generators of the refresh operations -/

/-- R181: the two streams, re-pointed between where the parameter asks for it. -/
theorem linkEvents_dualStream (P : Params) (bs : List Byte) (gap : List Uop) (w : Window) :
    linkEvents (dualStream P bs gap (windowAndPointer w)) = Spec.dual P bs (linkEvents gap) (windowCommands w) := by
  have hstream (c : Byte) : linkEvents [.cmd c, .burst bs] = Spec.command (c, bs) := by
    simp [linkEvents, Uop.linkEvents, Spec.command]
  simp only [dualStream, Spec.dual, linkEvents_append, hstream]
  split
  · rw [linkEvents_windowAndPointer]
  · rfl

/-- R152: a mode of two bits is not clamped. -/
@[simp] theorem clampEntryMode_setWidth (e : BitVec 2) : clampEntryMode (e.setWidth 8) = e := by
  revert e; decide

/-- R182, R188: the ends of UPDATE and ERASE. -/
theorem linkEvents_updFullSeq_pwrOffSeq : linkEvents updFullSeq ++ linkEvents pwrOffSeq =
    Spec.commands [(0x22, [0xC7]), (0x20, []), (0x22, [0xC3]), (0x20, [])] := rfl

theorem linkEvents_updateSeq (P : Params) (fb : List Host.Cell) :
    linkEvents (updateSeq P fb) = Spec.fullRefresh P (P.emUpdate.setWidth 8) (image P fb) := by
  simp only [updateSeq, Spec.fullRefresh, linkEvents_append, linkEvents_initFullSeq, linkEvents_dualStream,
    linkEvents_nil, entryMode_eq, clampEntryMode_setWidth, List.tail_cons, List.append_assoc,
    linkEvents_updFullSeq_pwrOffSeq]

theorem linkEvents_eraseSeq (P : Params) : linkEvents (eraseSeq P) = Spec.fullRefresh P 1 eraseBytes := by
  simp only [eraseSeq, Spec.fullRefresh, linkEvents_append, linkEvents_initFullSeq, linkEvents_dualStream,
    linkEvents_nil, List.append_assoc, linkEvents_updFullSeq_pwrOffSeq]
  rfl

theorem linkEvents_updwinRectSeq (P : Params) (fb : List Host.Cell) (r : Rect) :
    linkEvents (updwinRectSeq P fb r) = Spec.commands (Spec.initPart P 3 ++ windowCommands r.window) ++
      Spec.dual P (rectBytes P fb r) [.dly .streamSettle] (windowCommands r.window) ++
      Spec.commands [(0x22, [0x04]), (0x20, [])] := by
  simp only [updwinRectSeq, linkEvents_append, linkEvents_initPartSeq, linkEvents_windowAndPointer,
    linkEvents_dualStream, commands_append]
  rfl

/-- R182: re-pointing repeats the window InitFull left; the refresh ends with PowerOff. -/
theorem shadowsAfter_updateSeq (P : Params) (fb : List Host.Cell) (h : Shadows) :
    shadowsAfter (updateSeq P fb) h =
      { Spec.entryShadows (P.emUpdate.setWidth 8) h with lutsel := 1, pwr := false } := by
  simp only [updateSeq, shadowsAfter_append, shadowsAfter_initFullSeq, entryShadows_eq, clampEntryMode_setWidth]
  rw [shadowsAfter_dualStream rfl rfl]
  rfl

theorem shadowsAfter_eraseSeq (P : Params) (h : Shadows) :
    shadowsAfter (eraseSeq P) h = { Spec.entryShadows 1 h with lutsel := 1, pwr := false } := by
  simp only [eraseSeq, shadowsAfter_append, shadowsAfter_initFullSeq, entryShadows_eq]
  rw [shadowsAfter_dualStream rfl rfl]
  rfl

/-- R185, R187: the window is the rectangle's, and the panel stays powered. -/
theorem shadowsAfter_updwinRectSeq (P : Params) (fb : List Host.Cell) (r : Rect) (h : Shadows) :
    shadowsAfter (updwinRectSeq P fb r) h =
      { Spec.entryShadows 3 h with win := r.window, lutsel := 2, pwr := true } := by
  simp only [updwinRectSeq, shadowsAfter_append, shadowsAfter_initPartSeq, entryShadows_eq,
    shadowsAfter_windowAndPointer]
  rw [shadowsAfter_dualStream rfl rfl]
  rfl

/-- R186: the clipped rectangle of a request that is not empty. -/
theorem clip_of_clipped {x y w h : Nat} {r : Rect} (hr : Spec.Clipped x y w h r) : clip x y w h = some r := by
  obtain ⟨xsb, xeb, ys, ye⟩ := r
  simp only [Spec.Clipped] at hr
  obtain ⟨⟨hw, hh, hx, hy⟩, hxsb, hxeb, hys, hye⟩ := hr
  have hne : ¬ (w = 0 ∨ h = 0 ∨ 128 ≤ x ∨ 250 ≤ y) := by omega
  simp only [clip, if_neg hne, hxsb, hxeb, hys, hye]

/-! ### The operations' expansions -/

section
variable (P : Params) (s : State) (em : Byte)

theorem expand_initdisp : expand P (latch (.initdisp em) s) = initDispSeq P em := by
  change initDispSeq P (lo (byteOperand em)) = _
  rw [lo_byteOperand]

theorem expand_setem : expand P (latch (.setem em) s) = setEmSeq em := by
  change setEmSeq (lo (byteOperand em)) = _
  rw [lo_byteOperand]

theorem expand_initfull : expand P (latch (.initfull em) s) = initFullSeq P em := by
  change initFullSeq P (lo (byteOperand em)) = _
  rw [lo_byteOperand]

theorem expand_initpart : expand P (latch (.initpart em) s) = initPartSeq P em := by
  change initPartSeq P (lo (byteOperand em)) = _
  rw [lo_byteOperand]

theorem expand_update : expand P (latch .update s) = updateSeq P s.fb := rfl

theorem expand_erase : expand P (latch .erase s) = eraseSeq P := rfl

theorem expand_updwin {x y w h : U16} {r : Rect} (hr : Spec.Clipped x.toNat y.toNat w.toNat h.toNat r) :
    expand P (latch (.updwin x y w h) s) = updwinRectSeq P s.fb r := by
  change updwinSeq P s.fb x y w h = _
  rw [updwinSeq, clip_of_clipped hr]

end

/-! ### How a link operation ends -/

/-- R121: a link operation whose micro-program is the same from every state completes with its effect, when the
panel answers its waits. -/
theorem completesWith_of_expand {i : Instr} {p : List Uop} {n : Nat} {evs : List Event} {f : Shadows → Shadows}
    (hl : isLink i = true) (hw : i.wellFormed = true) (he : ∀ s, expand Config.params (latch i s) = p)
    (hn : waitCount p = n) (hevs : linkEvents p = evs) (hsh : ∀ h, shadowsAfter p h = f h) :
    CompletesWith i n (fun _ => evs) f := by
  obtain rfl : shadowsAfter p = f := funext hsh
  subst hn hevs
  intro s ha hf hresp
  rw [← he s] at hresp ⊢
  exact exec_completed hl hw ha hf hresp

/-- R296, R297: a link operation that ends with FAULT set stopped at a µop that waits. -/
theorem faultsAtWaits {i : Instr} (hl : isLink i = true) (hw : i.wellFormed = true) : Spec.FaultsAtWaits i := by
  intro s t ha hf he ht
  rcases exec_link_cases hl hw ha hf with ⟨m, hm, -, hc⟩ | ⟨pre, u, post, m, r, hp, hr, -, hu, hF⟩
  · obtain rfl : finishProgram m = t := by rw [hm] at he; injection he
    have hsame : (finishProgram m).fault = s.fault := congrArg FaultRecord.fault hc.record
    rw [hsame, hf] at ht
    cases ht
  · obtain rfl : r = t := by rw [hr] at he; injection he
    have hlen := expand_length_lt params_wf (latch i s)
    refine ⟨pre.length, u, ?_, ?_, hu.waits, ?_⟩
    · rw [hp, List.length_append] at hlen; omega
    · simp [hp]
    · simpa [hp] using hF

end Sys2Proof.Proofs
end

section
/-! PROOFS. The operations of the sequencer (R155 to R163). -/

namespace Sys2Proof.Proofs

open Sys2Proof.Machine

/-! ### Entry mode and initialisation -/

/-- Settles O29: the micro-program of SETEM is R152's table. -/
theorem setemOperation : Obligations.SetemOperation := fun em =>
  ⟨⟨rfl, rfl⟩, completesWith_of_expand rfl rfl (expand_setem _ · em) (waitCount_setEmSeq em)
    (linkEvents_setEmSeq em) (shadowsAfter_setEmSeq em)⟩

/-- Settles O30: the registers in R154's order, then SETEM's table, whose window is the one that stays. -/
theorem initdispOperation : Obligations.InitdispOperation := fun em =>
  ⟨⟨rfl, rfl⟩, completesWith_of_expand rfl rfl (expand_initdisp _ · em) (waitCount_initDispSeq _ em)
    (linkEvents_initDispSeq _ em) (shadowsAfter_initDispSeq _ em)⟩

/-- Settles O31: InitDisplay, the full table and PowerOn, one after another. -/
theorem initfullOperation : Obligations.InitfullOperation := fun em =>
  ⟨⟨rfl, rfl⟩, completesWith_of_expand rfl rfl (expand_initfull _ · em) (waitCount_initFullSeq _ em)
    (linkEvents_initFullSeq _ em) (shadowsAfter_initFullSeq _ em)⟩

/-- Settles O32: the VCOM override stands between InitDisplay and the partial table. -/
theorem initpartOperation : Obligations.InitpartOperation := fun em =>
  ⟨⟨rfl, rfl⟩, completesWith_of_expand rfl rfl (expand_initpart _ · em) (waitCount_initPartSeq _ em)
    (linkEvents_initPartSeq _ em) (shadowsAfter_initPartSeq _ em)⟩

/-! ### Activations -/

/-- Settles O33: each is one activation pair, with no shadow write in its micro-program. -/
theorem updateActivations : Obligations.UpdateActivations := by
  refine ⟨⟨rfl, rfl⟩, ⟨rfl, rfl⟩, ?_, ?_⟩
  · exact completesWith_of_expand (p := updFullSeq) rfl rfl (fun _ => rfl) rfl rfl fun _ => rfl
  · exact completesWith_of_expand (p := updPartSeq) rfl rfl (fun _ => rfl) rfl rfl fun _ => rfl

/-- R161: PWR is set by the µops before the final wait, µop 4, and by those before no earlier wait. -/
theorem pwr_before_wait_of_pwrOnSeq {n : Nat} {u : Uop} (hn : pwrOnSeq[n]? = some u) (hu : u.waits = true)
    (h : Shadows) : (shadowsAfter (pwrOnSeq.take n) h).pwr = if BitVec.ofNat 16 n = 4 then true else h.pwr := by
  rcases n with _ | _ | _ | _ | _ | n
  · rfl
  · cases hn; cases hu
  · rfl
  · cases hn; cases hu
  · rfl
  · cases hn

/-- R162: the µops before a wait of PowerOff write no shadow; the one that does comes last. -/
theorem shadows_before_wait_of_pwrOffSeq {n : Nat} {u : Uop} (hn : pwrOffSeq[n]? = some u) (hu : u.waits = true)
    (h : Shadows) : shadowsAfter (pwrOffSeq.take n) h = h := by
  rcases n with _ | _ | _ | _ | _ | n
  · rfl
  · cases hn; cases hu
  · rfl
  · rfl
  · cases hn; cases hu
  · cases hn

/-- Settles O34: the shadow write stands between 0x20 and the wait. -/
theorem pwronOperation : Obligations.PwronOperation := by
  refine ⟨⟨rfl, rfl⟩, completesWith_of_expand (p := pwrOnSeq) rfl rfl (fun _ => rfl) rfl rfl fun _ => rfl,
    fun s t ha hf he ht => ?_⟩
  obtain ⟨n, u, -, hn, hu, hF⟩ := faultsAtWaits (i := .pwron) rfl rfl s t ha hf he ht
  have hpwr : t.pwr = (shadowsAfter (pwrOnSeq.take n) s.shadows).pwr := congrArg Shadows.pwr hF.shadows
  have hfupc : t.fupc = BitVec.ofNat 16 n := congrArg FaultRecord.fupc hF.record
  rw [hpwr, hfupc]
  exact pwr_before_wait_of_pwrOnSeq hn hu s.shadows

/-- Settles O35: the shadow write stands after the wait. -/
theorem pwroffOperation : Obligations.PwroffOperation := by
  refine ⟨⟨rfl, rfl⟩, completesWith_of_expand (p := pwrOffSeq) rfl rfl (fun _ => rfl) rfl rfl fun _ => rfl,
    fun s t ha hf he ht => ?_⟩
  obtain ⟨n, u, -, hn, hu, hF⟩ := faultsAtWaits (i := .pwroff) rfl rfl s t ha hf he ht
  have hshadows : t.shadows = s.shadows := hF.shadows.trans (shadows_before_wait_of_pwrOffSeq hn hu s.shadows)
  exact congrArg Shadows.pwr hshadows

/-! ### The waveform table -/

/-- R163: the uploads of a waveform table in a list of commands. -/
def lutUploads (l : List (Byte × List Byte)) : List (Byte × List Byte) := l.filter fun c => c.1 == 0x32

theorem lutUploads_append (l m : List (Byte × List Byte)) : lutUploads (l ++ m) = lutUploads l ++ lutUploads m :=
  List.filter_append ..

@[simp] theorem lutUploads_windowCommands (w : Window) : lutUploads (windowCommands w) = [] := rfl

@[simp] theorem lutUploads_entryMode (em : Byte) : lutUploads (Spec.entryMode em) = [] := by
  rw [entryMode_eq]; rfl

@[simp] theorem lutUploads_entryMode_tail (em : Byte) : lutUploads (Spec.entryMode em).tail = [] := by
  rw [entryMode_eq]; rfl

/-- R154: InitDisplay uploads no table. -/
@[simp] theorem lutUploads_initDisplay (P : Params) (em : Byte) : lutUploads (Spec.initDisplay P em) = [] := by
  rw [Spec.initDisplay, lutUploads_append, lutUploads_entryMode]; rfl

@[simp] theorem lutUploads_initFull (P : Params) (em : Byte) :
    lutUploads (Spec.initFull P em) = [(0x32, P.lutFull)] := by
  rw [Spec.initFull, lutUploads_append, lutUploads_initDisplay]; rfl

@[simp] theorem lutUploads_initPart (P : Params) (em : Byte) :
    lutUploads (Spec.initPart P em) = [(0x32, P.lutPart)] := by
  rw [Spec.initPart, lutUploads_append, lutUploads_initDisplay]; rfl

/-- R181: what the second stream is sent after: the re-pointing, where the parameter asks for it. -/
def repointed (P : Params) (again : List (Byte × List Byte)) : List (Byte × List Byte) :=
  if P.repointSecondBurst then again else []

theorem lutUploads_repointed (P : Params) {again : List (Byte × List Byte)} (h : lutUploads again = []) :
    lutUploads (repointed P again) = [] := by
  unfold repointed
  split
  · exact h
  · rfl

theorem dual_eq (P : Params) (bs : List Byte) (gap : List Event) (again : List (Byte × List Byte)) :
    Spec.dual P bs gap again =
      Spec.commands [(0x24, bs)] ++ gap ++ Spec.commands (repointed P again ++ [(0x26, bs)]) := by
  cases h : P.repointSecondBurst <;> simp [Spec.dual, repointed, h, commands_append, commands_cons]

/-- R182, R188: the commands of a full refresh. -/
theorem commandsOf_fullRefresh (P : Params) (em : Byte) (bs : List Byte) :
    commandsOf (Spec.fullRefresh P em bs) = Spec.initFull P em ++ [(0x24, bs)] ++
      (repointed P (Spec.entryMode em).tail ++ [(0x26, bs)]) ++
      [(0x22, [0xC7]), (0x20, []), (0x22, [0xC3]), (0x20, [])] := by
  rw [Spec.fullRefresh, dual_eq, List.append_nil, ← List.append_assoc, ← commands_append, ← commands_append,
    ← commands_append, commandsOf_commands]

/-- R185: the commands of a partial refresh; the settle delay is none. -/
theorem commandsOf_updwinRectSeq (P : Params) (fb : List Host.Cell) (r : Rect) :
    commandsOf (linkEvents (updwinRectSeq P fb r)) =
      Spec.initPart P 3 ++ windowCommands r.window ++ [(0x24, rectBytes P fb r)] ++
        (repointed P (windowCommands r.window) ++ [(0x26, rectBytes P fb r), (0x22, [0x04]), (0x20, [])]) := by
  rw [← commandsOf_commands_dly _ _ .streamSettle, linkEvents_updwinRectSeq, dual_eq]
  simp only [commands_append, commands_cons, commands_nil, List.append_assoc, List.cons_append, List.append_nil,
    List.nil_append]

/-- R163: a full refresh uploads the full table once. -/
theorem lutUploads_fullRefresh (P : Params) (em : Byte) (bs : List Byte) :
    lutUploads (commandsOf (Spec.fullRefresh P em bs)) = [(0x32, P.lutFull)] := by
  simp only [commandsOf_fullRefresh, lutUploads_append, lutUploads_initFull,
    lutUploads_repointed P (lutUploads_entryMode_tail em)]
  rfl

/-- R163: a partial refresh uploads the partial table once. -/
theorem lutUploads_updwinRectSeq (P : Params) (fb : List Host.Cell) (r : Rect) :
    lutUploads (commandsOf (linkEvents (updwinRectSeq P fb r))) = [(0x32, P.lutPart)] := by
  simp only [commandsOf_updwinRectSeq, lutUploads_append, lutUploads_initPart, lutUploads_windowCommands,
    lutUploads_repointed P (lutUploads_windowCommands r.window)]
  rfl

/-- Settles O36: each micro-program runs the multiplexer once, with the selection its operation fixes, and no other
of its generators sends 0x32 or writes LUTSEL. -/
theorem lutMultiplexerSendsTheWholeTable : Obligations.LutMultiplexerSendsTheWholeTable := by
  intro P s em x y w h r hr
  simp only [expand_initfull, expand_initpart, expand_update, expand_erase, expand_updwin P s hr]
  refine ⟨?_, ?_, ?_, ?_, lutUploads_updwinRectSeq P s.fb r, fun k => ⟨?_, ?_, ?_, ?_, ?_⟩⟩
  · rw [linkEvents_initFullSeq, commandsOf_commands]; exact lutUploads_initFull P em
  · rw [linkEvents_updateSeq]; exact lutUploads_fullRefresh P _ _
  · rw [linkEvents_eraseSeq]; exact lutUploads_fullRefresh P _ _
  · rw [linkEvents_initPartSeq, commandsOf_commands]; exact lutUploads_initPart P em
  · rw [shadowsAfter_initFullSeq]
  · rw [shadowsAfter_updateSeq]
  · rw [shadowsAfter_eraseSeq]
  · rw [shadowsAfter_initPartSeq]
  · rw [shadowsAfter_updwinRectSeq]

end Sys2Proof.Proofs
end

section
/-! PROOFS. INIT (R180): the panel reset, the software reset, a wait; where STALL and RST stand at each of its
ends. -/

namespace Sys2Proof.Proofs

open Sys2Proof.Machine

/-! ### A busy wait's two ends, and the samples left after one -/

/-- R292: within the bound a wait finds BUSY low at a first sample, or at none. -/
theorem firstReady_or_stuckBusy (P : Params) (s : State) :
    (∃ k, k < P.busyMaxPolls ∧ FirstReady s k) ∨ StuckBusy P s := by
  rcases waitBusy_cases P false s with ⟨k, hk, hall, hlast, -⟩ | ⟨hall, -⟩
  · exact .inl ⟨k, hk, hall, hlast⟩
  · exact .inr hall

/-- R43: a wait that ends at its sample `k` uses up the samples to `k`, and no other. -/
theorem upcomingBusy_waited (log : Bool) (k i : Nat) (s : State) :
    upcomingBusy (waited log k s) i = upcomingBusy s (k + 1 + i) := by
  rw [waited, upcomingBusy_sampleBusy, upcomingBusy_polled, ← Nat.add_assoc]
  exact upcomingBusy_congr rfl rfl _

theorem performAll_append {P : Params} {us : List Uop} {s m : State} (h : performAll P us s = some m)
    (vs : List Uop) : performAll P (us ++ vs) s = performAll P vs m := by
  induction us generalizing s with
  | nil => cases h; rfl
  | cons u us ih =>
    rw [performAll] at h
    split at h
    · rename_i t ht
      rw [List.cons_append, performAll_cons ht]
      exact ih h
    · cases h

/-! ### INIT from wait to wait -/

/-- R180: INIT after its hardware reset, whose wait found BUSY low at sample `j`. -/
def initReset (j : Nat) (s : State) : State := advance (waited false j (pulsed (startProgram (latch .init s))))

/-- R180: INIT after its software reset, whose precheck found BUSY low at sample `k`. -/
def initSoftReset (j k : Nat) (s : State) : State := advance (sendCommand 0x12 (waited true k (initReset j s)))

@[simp] theorem initReset_rst (j : Nat) (s : State) : (initReset j s).pins.rst = true := by simp [initReset]

@[simp] theorem initReset_stall (j : Nat) (s : State) : (initReset j s).stall = s.stall := by simp [initReset]

@[simp] theorem initSoftReset_rst (j k : Nat) (s : State) : (initSoftReset j k s).pins.rst = true := by
  simp [initSoftReset, sendCommand]

/-- R124: the one precheck of INIT is all that can log a stall. -/
@[simp] theorem initSoftReset_stall (j k : Nat) (s : State) :
    (initSoftReset j k s).stall = (s.stall || decide (0 < k)) := by
  simp [initSoftReset, sendCommand]

/-- R292: the precheck of 0x12 samples BUSY from where the first wait left it. -/
theorem upcomingBusy_initReset (j i : Nat) (s : State) :
    upcomingBusy (initReset j s) i = upcomingBusy s (j + 1 + i) :=
  (upcomingBusy_congr rfl rfl i).trans
    ((upcomingBusy_waited false j i _).trans (upcomingBusy_congr (by simp) (by simp) _))

theorem firstReady_initReset (j k : Nat) (s : State) :
    FirstReady (initReset j s) k ↔ Spec.readyAfter s (j + 1) k := by
  simp only [FirstReady, Spec.readyAfter, upcomingBusy_initReset]

section
variable {j k : Nat} {s : State} (hj : FirstReady s j) (hjP : j < Config.params.busyMaxPolls)

include hj hjP

theorem performAll_initReset :
    performAll Config.params resetSeq (startProgram (latch .init s)) = some (initReset j s) :=
  performAll_resetSeq (waitBusy_waited false (firstReady_congr (by simp) (by simp) hj) hjP)

theorem performAll_initSoftReset (hk : FirstReady (initReset j s) k) (hkP : k < Config.params.busyMaxPolls) :
    performAll Config.params (resetSeq ++ [.cmd 0x12]) (startProgram (latch .init s)) =
      some (initSoftReset j k s) := by
  rw [performAll_append (performAll_initReset hj hjP)]
  exact performAll_cons (perform_cmd_done 0x12 (waitBusy_waited true hk hkP))

end

/-! ### The ends of INIT -/

/-- R180: the samples of INIT's first wait and of its precheck were in time, and STALL logs the latter alone. -/
def InitPrechecked (s t : State) : Prop :=
  ∃ j k, FirstReady s j ∧ j < Config.params.busyMaxPolls ∧ Spec.readyAfter s (j + 1) k ∧
    k < Config.params.busyMaxPolls ∧ t.stall = (s.stall || decide (0 < k))

section
variable {s : State} (ha : s.active = false) (hf : s.fault = false)

include ha hf

/-- R180, R296: INIT whose hardware reset is not answered. -/
theorem exec_init_fault_at_4 (hs : StuckBusy Config.params s) : ∃ t, exec .init s = .next t ∧ t.pins.rst = true ∧
    t.fault = true ∧ t.fupc = 4 ∧ t.stall = s.stall := by
  have hstuck : StuckBusy Config.params (pulsed (startProgram (latch .init s))) :=
    stuckBusy_congr (by simp) (by simp) hs
  obtain ⟨he, hF⟩ := exec_raised (i := .init) (u := .wait) rfl rfl ha hf rfl (performAll_pulseSeq _ _)
    (waitBusy_expired false hstuck)
  exact ⟨_, he, by simp, congrArg FaultRecord.fault hF.record, congrArg FaultRecord.fupc hF.record,
    by simp [expired_stall params_wf.polls]⟩

variable {j k : Nat} (hj : FirstReady s j) (hjP : j < Config.params.busyMaxPolls)

include hj hjP

/-- R180, R296: INIT whose precheck of 0x12 expires. -/
theorem exec_init_fault_at_5 (hs : StuckBusy Config.params (initReset j s)) : ∃ t, exec .init s = .next t ∧
    t.pins.rst = true ∧ t.fault = true ∧ t.fupc = 5 ∧ t.stall = true := by
  obtain ⟨he, hF⟩ := exec_raised (i := .init) (u := .cmd 0x12) rfl rfl ha hf rfl (performAll_initReset hj hjP)
    (perform_cmd_raised 0x12 (waitBusy_expired true hs))
  exact ⟨_, he, by simp, congrArg FaultRecord.fault hF.record, congrArg FaultRecord.fupc hF.record,
    by simp [expired_stall params_wf.polls]⟩

/-- R180, R296: INIT past its precheck completes or has its last wait expire, STALL the same. -/
theorem exec_init_past_precheck (hk : FirstReady (initReset j s) k) (hkP : k < Config.params.busyMaxPolls) :
    ∃ t, exec .init s = .next t ∧ t.pins.rst = true ∧ (t.fault = true → t.fupc = 6) ∧ InitPrechecked s t := by
  have hm := performAll_initSoftReset hj hjP hk hkP
  have hstall {t : State} (ht : t.stall = (s.stall || decide (0 < k))) : InitPrechecked s t :=
    ⟨j, k, hj, hjP, (firstReady_initReset j k s).1 hk, hkP, ht⟩
  rcases firstReady_or_stuckBusy Config.params (initSoftReset j k s) with ⟨n, hnP, hn⟩ | hs
  · have hw : performAll Config.params [.wait] (initSoftReset j k s) = some (advance (waited false n _)) :=
      performAll_cons (waitBusy_waited false hn hnP)
    obtain ⟨he, hC⟩ := exec_performed (i := .init) rfl rfl ha hf rfl ((performAll_append hm [.wait]).trans hw)
    have hfault := (congrArg FaultRecord.fault hC.record).trans hf
    exact ⟨_, he, by simp, fun h => absurd (h.symm.trans hfault) (by decide), hstall (by simp)⟩
  · obtain ⟨he, hF⟩ := exec_raised (i := .init) (u := .wait) rfl rfl ha hf rfl hm (waitBusy_expired false hs)
    exact ⟨_, he, by simp, fun _ => congrArg FaultRecord.fupc hF.record,
      hstall (by simp [expired_stall params_wf.polls])⟩

end

/-- R180: everything INIT can do: stop at its first wait, at its precheck, or come past the precheck. -/
theorem exec_init_cases {s t : State} (ha : s.active = false) (hf : s.fault = false) (he : exec .init s = .next t) :
    t.pins.rst = true ∧
      ((t.fault = true ∧ t.fupc = 4 ∧ t.stall = s.stall) ∨ (t.fault = true ∧ t.fupc = 5 ∧ t.stall = true) ∨
        ((t.fault = true → t.fupc = 6) ∧ InitPrechecked s t)) := by
  have same {r : State} (hr : exec .init s = .next r) : r = t := by rw [hr] at he; injection he
  rcases firstReady_or_stuckBusy Config.params s with ⟨j, hjP, hj⟩ | hs
  · rcases firstReady_or_stuckBusy Config.params (initReset j s) with ⟨k, hkP, hk⟩ | hs
    · obtain ⟨r, hr, hrst, h⟩ := exec_init_past_precheck ha hf hj hjP hk hkP
      exact same hr ▸ ⟨hrst, .inr (.inr h)⟩
    · obtain ⟨r, hr, hrst, h⟩ := exec_init_fault_at_5 ha hf hj hjP hs
      exact same hr ▸ ⟨hrst, .inr (.inl h)⟩
  · obtain ⟨r, hr, hrst, h⟩ := exec_init_fault_at_4 ha hf hs
    exact same hr ▸ ⟨hrst, .inl h⟩

/-- Settles O42: INIT's waits are taken one by one, each with its two ends. -/
theorem initOperation : Obligations.InitOperation := by
  refine ⟨⟨rfl, rfl⟩, completesWith_of_expand (p := initSeq) rfl rfl (fun _ => rfl) rfl rfl fun _ => rfl,
    faultsAtWaits rfl rfl, fun s t ha hf he => ?_⟩
  obtain ⟨hrst, ⟨hfault, hupc, hstall⟩ | ⟨hfault, hupc, hstall⟩ | ⟨hupc, hpre⟩⟩ := exec_init_cases ha hf he
  · exact ⟨hrst, fun _ => .inl hupc, fun _ _ => hstall, by simp [hupc], by simp [hfault, hupc]⟩
  · exact ⟨hrst, fun _ => .inr (.inl hupc), by simp [hupc], fun _ _ => hstall, by simp [hfault, hupc]⟩
  · exact ⟨hrst, fun h => .inr (.inr (hupc h)), fun h => by simp [hupc h], fun h => by simp [hupc h],
      fun _ => hpre⟩

end Sys2Proof.Proofs
end

section
/-! PROOFS. The refresh operations UPDATE, ERASE and UPDWIN (R182 to R188): the clipped rectangle, the Bytes
streamed, the operations. -/

namespace Sys2Proof.Proofs

open Sys2Proof.Machine

/-! ### The clipped rectangle (R186) -/

theorem clip_eq_none_iff (x y w h : Nat) : clip x y w h = none ↔ w = 0 ∨ h = 0 ∨ 128 ≤ x ∨ 250 ≤ y := by
  rw [clip, ite_eq_left_iff]
  simp only [reduceCtorEq, imp_false, not_not]

theorem clip_eq_some_iff (x y w h : Nat) (r : Rect) : clip x y w h = some r ↔ Spec.Clipped x y w h r := by
  refine ⟨fun hr => ?_, clip_of_clipped⟩
  unfold clip at hr
  split at hr
  · cases hr
  · cases hr
    exact ⟨by omega, rfl, rfl, rfl, rfl⟩

section
variable {x y w h : Nat} {r : Rect} (hr : Spec.Clipped x y w h r)

include hr

/-- R186: the rectangle lies in the panel's byte columns and rows. -/
theorem bounds_of_clipped : r.xeb < 16 ∧ r.ys < 250 ∧ r.ye < 250 := by
  obtain ⟨⟨-, -, hx, hy⟩, -, hxeb, hys, hye⟩ := hr
  omega

/-- R186: widening to byte columns never narrows. -/
theorem clipped_covers {px py : Nat} (hpx : px < 128) (hpy : py < 250) (hx : x ≤ px) (hxw : px < x + w)
    (hy : y ≤ py) (hyh : py < y + h) : 8 * r.xsb ≤ px ∧ px ≤ 8 * r.xeb + 7 ∧ r.ys ≤ py ∧ py ≤ r.ye := by
  obtain ⟨-, hxsb, hxeb, hys, hye⟩ := hr
  omega

/-- R186: no Byte of the rectangle is outside the framebuffer. -/
theorem clipped_index_le {i j : Nat} (hi : i ≤ r.xeb) (hj : j ≤ r.ye) : j * 16 + i ≤ 3999 := by
  have := bounds_of_clipped hr
  omega

end

/-- Settles O46: the clipped rectangle is the rule's, and the rule's covers the request inside the panel. -/
theorem clipWidensAndNeverNarrows : Obligations.ClipWidensAndNeverNarrows := by
  refine fun x y w h => ⟨clip_eq_none_iff x y w h, fun r => ?_⟩
  rw [clip_eq_some_iff]
  refine ⟨fun hr => ⟨hr, fun _ _ => clipped_covers hr, fun _ _ _ hi _ hj => clipped_index_le hr hi hj⟩, And.left⟩

/-! ### The Bytes streamed (R65, R66) -/

theorem xmit_eq_sent (P : Params) (b : Byte) : xmit P b = Spec.sent P b := by
  have hnot : ~~~b = 255 - b := (BitVec.allOnes_sub_eq_not b).symm
  rw [xmit, Spec.sent, hnot]

/-- R65: inside the framebuffer the default Byte is never sent. -/
theorem xmit_fbByte (P : Params) (fb : List Host.Cell) {i : Nat} (hi : i < 4000) :
    xmit P (fbByte P fb i) = Spec.sent P (readByte fb i) := by
  rw [xmit_eq_sent, fbByte, if_pos hi]

theorem upTo_eq_map_range (a b : Nat) : upTo a b = (List.range (b + 1 - a)).map (a + ·) :=
  List.range'_eq_map_range

/-- R66: a rectangle of the panel is streamed row by row. -/
theorem rectBytes_eq (P : Params) (fb : List Host.Cell) {r : Rect} (hx : r.xeb < 16) (hy : r.ye < 250) :
    rectBytes P fb r = Spec.rectangle P fb r.xsb r.xeb r.ys r.ye := by
  simp only [rectBytes, Spec.rectangle, upTo_eq_map_range, List.flatMap_map, List.map_map]
  refine List.flatMap_congr fun j hj => List.map_congr_left fun i hi => xmit_fbByte P fb ?_
  rw [List.mem_range] at hi hj
  change (r.ys + j) * 16 + (r.xsb + i) < 4000
  omega

/-- R61: the indices of `m` rows of `n` Bytes, row by row, are in ascending order. -/
theorem range_mul_eq_flatMap (m n : Nat) :
    List.range (m * n) = (List.range m).flatMap fun j => (List.range n).map (j * n + ·) := by
  induction m with
  | zero => simp
  | succ m ih => rw [Nat.succ_mul, List.range_add, List.range_succ, List.flatMap_append, ← ih, List.flatMap_singleton]

/-- R66: the whole panel, row by row, is the framebuffer in index order. -/
theorem rectangle_whole (P : Params) (fb : List Host.Cell) :
    Spec.rectangle P fb 0 15 0 249 = Spec.wholeImage P fb := by
  have hrange := range_mul_eq_flatMap 250 16
  simp only [Spec.wholeImage, hrange, List.map_flatMap, List.map_map, Spec.rectangle, Nat.zero_add]
  rfl

theorem image_eq (P : Params) (fb : List Host.Cell) : image P fb = Spec.wholeImage P fb :=
  (rectBytes_eq P fb (r := { xsb := 0, xeb := 15, ys := 0, ye := 249 }) (by decide) (by decide)).trans
    (rectangle_whole P fb)

/-- R151: a row below 256 is sent as its low Byte and 0. -/
theorem windowCommands_window {r : Rect} (hys : r.ys < 256) (hye : r.ye < 256) :
    windowCommands r.window = Spec.windowAt r.xsb r.xeb r.ys r.ye := by
  have hlo (n : Nat) : lo (BitVec.ofNat 16 n) = BitVec.ofNat 8 n := BitVec.eq_of_toNat_eq (by simp [lo_toNat])
  have hhi {n : Nat} (hn : n < 256) : hi (BitVec.ofNat 16 n) = 0 :=
    BitVec.eq_of_toNat_eq (by simp [hi_toNat]; omega)
  simp only [windowCommands, Rect.window, Spec.windowAt, hlo, hhi hys, hhi hye]

/-- R185: the link events of a partial refresh, for a rectangle of the panel. -/
theorem linkEvents_updwinRectSeq_of_clipped (P : Params) (fb : List Host.Cell) {x y w h : Nat} {r : Rect}
    (hr : Spec.Clipped x y w h r) :
    linkEvents (updwinRectSeq P fb r) = Spec.partialRefresh P fb r.xsb r.xeb r.ys r.ye := by
  obtain ⟨hxeb, hys, hye⟩ := bounds_of_clipped hr
  rw [linkEvents_updwinRectSeq, rectBytes_eq P fb hxeb hye, windowCommands_window (by omega) (by omega)]
  rfl

/-! ### The busy waits of a refresh -/

theorem waitCount_windowAndPointer (w : Window) : waitCount (windowAndPointer w) = 4 := rfl

/-- R182, R188: the waits of UPDATE and of ERASE, whatever their mode, Bytes and window. -/
theorem waitCount_fullRefresh (P : Params) (em : Byte) (bs : List Byte) (w : Window) :
    waitCount (initFullSeq P em ++ dualStream P bs [] (windowAndPointer w) ++ updFullSeq ++ pwrOffSeq) =
      28 + if P.repointSecondBurst then 4 else 0 := by
  have hupd : waitCount updFullSeq = 3 := rfl
  have hoff : waitCount pwrOffSeq = 3 := rfl
  simp only [waitCount_append, waitCount_initFullSeq, waitCount_dualStream, waitCount_nil,
    waitCount_windowAndPointer, hupd, hoff]
  omega

theorem waitCount_updateSeq (P : Params) (fb : List Host.Cell) :
    waitCount (updateSeq P fb) = 28 + if P.repointSecondBurst then 4 else 0 := waitCount_fullRefresh P _ _ _

theorem waitCount_eraseSeq (P : Params) : waitCount (eraseSeq P) = 28 + if P.repointSecondBurst then 4 else 0 :=
  waitCount_fullRefresh P _ _ _

theorem waitCount_updwinRectSeq (P : Params) (fb : List Host.Cell) (r : Rect) :
    waitCount (updwinRectSeq P fb r) = 30 + if P.repointSecondBurst then 4 else 0 := by
  have hgap : waitCount [.dly .streamSettle] = 0 := rfl
  have hupd : waitCount updPartSeq = 3 := rfl
  simp only [updwinRectSeq, waitCount_append, waitCount_initPartSeq, waitCount_dualStream, hgap, hupd,
    waitCount_windowAndPointer]
  omega

/-! ### The operations -/

/-- R121, R25: a link operation whose micro-program is fixed by the state it is accepted in completes with that
program's effect, when the panel answers its waits. -/
theorem completesWith_of_expandFrom {i : Instr} {p : State → List Uop} {n : Nat} {evs : State → List Event}
    {f : Shadows → Shadows} (hl : isLink i = true) (hw : i.wellFormed = true)
    (he : ∀ s, expand Config.params (latch i s) = p s) (hn : ∀ s, waitCount (p s) = n)
    (hevs : ∀ s, linkEvents (p s) = evs s) (hsh : ∀ s h, shadowsAfter (p s) h = f h) : CompletesWith i n evs f := by
  intro s ha hf hresp
  rw [← hn s, ← he s] at hresp
  rw [← hsh s, ← hevs s, ← he s]
  exact exec_completed hl hw ha hf hresp

/-- Settles O43: the micro-program of UPDATE streams the image, which is the framebuffer in index order. -/
theorem updateOperation : Obligations.UpdateOperation := by
  refine ⟨⟨rfl, rfl⟩, ?_, faultsAtWaits rfl rfl⟩
  refine completesWith_of_expandFrom rfl rfl (expand_update _) (fun s => waitCount_updateSeq _ s.fb) (fun s => ?_)
    fun s => shadowsAfter_updateSeq _ s.fb
  rw [linkEvents_updateSeq, image_eq]

/-- Settles O44: the micro-program of ERASE is the same from every state. -/
theorem eraseOperation : Obligations.EraseOperation :=
  ⟨⟨rfl, rfl⟩, completesWith_of_expand rfl rfl (expand_erase _) (waitCount_eraseSeq _) (linkEvents_eraseSeq _)
    (shadowsAfter_eraseSeq _)⟩

/-- R186: an empty rectangle has an empty micro-program. -/
theorem expand_updwin_empty (P : Params) (s : State) {x y w h : U16}
    (he : w = 0 ∨ h = 0 ∨ 128 ≤ x.toNat ∨ 250 ≤ y.toNat) : expand P (latch (.updwin x y w h) s) = [] := by
  have hclip : clip x.toNat y.toNat w.toNat h.toNat = none :=
    (clip_eq_none_iff ..).2 (by simpa [← BitVec.toNat_inj] using he)
  change updwinSeq P s.fb x y w h = _
  rw [updwinSeq, hclip]

/-- R187: UPDWIN of an empty rectangle is accepted and released at once. -/
theorem exec_updwin_empty {s : State} {x y w h : U16} (he : w = 0 ∨ h = 0 ∨ 128 ≤ x.toNat ∨ 250 ≤ y.toNat)
    (ha : s.active = false) (hf : s.fault = false) : exec (.updwin x y w h) s =
      .next { s with opc := 0xA2, a0 := x, a1 := y, a2 := w, a3 := h, upc := 0 } := by
  rw [exec_eq, execUnder_link_runs rfl rfl ha hf, expand_updwin_empty _ _ he]
  simp only [ha]
  rfl

/-- R300: UPDWIN under FAULT is refused, whatever its rectangle. -/
theorem exec_updwin_refused {s : State} (x y w h : U16) (ha : s.active = false) (hf : s.fault = true) :
    exec (.updwin x y w h) s =
      .next { s with opc := 0xA2, a0 := x, a1 := y, a2 := w, a3 := h, rej := true } := by
  rw [exec_eq, execUnder_link_refused rfl rfl ha hf]
  rfl

/-- Settles O45: an empty rectangle has no µop; of any other the micro-program is that of its clipped rectangle. -/
theorem updwinOperation : Obligations.UpdwinOperation := by
  refine ⟨fun x y w h => ⟨rfl, ?_⟩, fun x y w h s he ha => ⟨exec_updwin_empty he ha, exec_updwin_refused x y w h ha⟩,
    fun x y w h r hr => ⟨?_, faultsAtWaits rfl rfl⟩⟩
  · exact congrArg some (by simp only [joinBytes_lo_hi])
  · exact completesWith_of_expandFrom rfl rfl (fun s => expand_updwin _ s hr)
      (fun s => waitCount_updwinRectSeq _ s.fb r) (fun s => linkEvents_updwinRectSeq_of_clipped _ s.fb hr)
      fun s => shadowsAfter_updwinRectSeq _ s.fb r

end Sys2Proof.Proofs
end

section
/-! PROOFS. The framebuffer operations FILL, PIXEL and GETPIX (R200 to R206), and the colour operand two of them
have (R94, R102). -/

namespace Sys2Proof.Proofs

open Sys2Proof.Machine

/-! ### Acceptance -/

/-- R102: a framebuffer operation with an illegal operand sets ILL and does nothing else. -/
theorem exec_illegal {i : Instr} {s : State} (hl : isLink i = false) (hp : isPanel i = false)
    (ha : s.active = false) (hw : i.wellFormed = false) : exec i s = .next { s with ill := true } := by
  rw [exec_eq]
  rcases local_cases Config.params hl hp s with ⟨ha', -⟩ | ⟨-, -, he⟩ | ⟨-, hw', -⟩ | ⟨-, rfl, -⟩
  · exact absurd (ha'.symm.trans ha) (by decide)
  · rw [he, rejectIllegal]
  · exact absurd (hw'.symm.trans hw) (by decide)
  · exact absurd hw (by decide)

/-- R300: FAULT has no part in the acceptance of an operation that does not drive the link. -/
theorem accept_local {i : Instr} {s : State} (body : State → State) (hl : isLink i = false) (ha : s.active = false)
    (hw : i.wellFormed = true) : accept i body s = body (latch i s) :=
  accept_through ha hw fun h => absurd (h.symm.trans hl) (by decide)

/-! ### The colour operand -/

theorem colour_lt_two_iff (c : Byte) : c.toNat < 2 ↔ c = 0 ∨ c = 1 := by
  rw [← BitVec.toNat_inj, ← BitVec.toNat_inj]
  change c.toNat < 2 ↔ c.toNat = 0 ∨ c.toNat = 1
  omega

/-- R102: the colours other than White and Black. -/
theorem colour_illegal {c : Byte} (h0 : c ≠ 0) (h1 : c ≠ 1) : decide (c.toNat < 2) = false :=
  decide_eq_false fun h => ((colour_lt_two_iff c).1 h).elim h0 h1

theorem colourBit_of_legal {c : Byte} (hc : c = 0 ∨ c = 1) : colourBit c = decide (c = 1) := by
  rcases hc with rfl | rfl <;> rfl

/-! ### FILL -/

theorem exec_fill {c : Byte} {s : State} (hc : c = 0 ∨ c = 1) (ha : s.active = false) : exec (.fill c) s =
    .next { s with opc := 0xB0, a0 := c.zeroExtend 16, fb := fillBytes (if c = 1 then 0xFF else 0x00) } := by
  have hw : (Instr.fill c).wellFormed = true := decide_eq_true ((colour_lt_two_iff c).2 hc)
  have hv : rep8 (colourBit c) = if c = 1 then 0xFF else 0x00 := by simp [rep8, colourBit_of_legal hc]
  rw [exec_eq, execUnder, fillOp, accept_local _ rfl ha hw, hv]
  rfl

/-- Settles O51: a fill is a memory that reads as the colour everywhere, and does not depend on what it fills. -/
theorem fillOperation : Obligations.FillOperation := by
  intro c s ha
  refine ⟨fun hc => ⟨⟨rfl, decodePacket_fill hc⟩, _, exec_fill hc ha, fun a h => ?_, fillBytes_wf _, rfl,
    exec_fill hc ha⟩, fun h0 h1 => exec_illegal rfl rfl ha (colour_illegal h0 h1)⟩
  rw [readByte_fillBytes, if_pos h]

/-! ### One pixel, at the physical pair of its logical one -/

theorem inBounds_iff (p : Int × Int) : inBounds p = true ↔ Spec.inside p := decide_eq_true_iff

section
variable {P : Params} {x y : U16} {s : State} {p : Int × Int} (hp : physical P s x y = p)

include hp

theorem drawPixel_inside (c : Bool) (hin : Spec.inside p) :
    drawPixel P x y c s = { s with fb := fbSet s.fb p.1.toNat p.2.toNat c } := by
  subst hp
  exact if_pos ((inBounds_iff _).2 hin)

/-- R204: clipping is silent. -/
theorem drawPixel_outside (c : Bool) (hout : ¬ Spec.inside p) : drawPixel P x y c s = s := by
  subst hp
  exact if_neg (mt (inBounds_iff _).1 hout)

theorem readPixel_inside (hin : Spec.inside p) :
    readPixel P x y s = { s with rdata := fbGet s.fb p.1.toNat p.2.toNat, roob := false } := by
  subst hp
  exact if_pos ((inBounds_iff _).2 hin)

/-- R206: outside it is White. -/
theorem readPixel_outside (hout : ¬ Spec.inside p) : readPixel P x y s = { s with rdata := false, roob := true } := by
  subst hp
  exact if_neg (mt (inBounds_iff _).1 hout)

end

/-! ### PIXEL -/

theorem encoded_pixel (x y : U16) {c : Byte} (hc : c = 0 ∨ c = 1) :
    Spec.Encoded (.pixel x y c) [0xB1, lo x, hi x, lo y, hi y, c] := by
  refine ⟨rfl, (decodePacket_pixel (lo x) (hi x) (lo y) (hi y) hc).trans ?_⟩
  change some (Instr.pixel (joinBytes (lo x) (hi x)) (joinBytes (lo y) (hi y)) c) = _
  rw [joinBytes_lo_hi, joinBytes_lo_hi]

theorem exec_pixel (x y : U16) {c : Byte} {s : State} (hc : c = 0 ∨ c = 1) (ha : s.active = false) :
    exec (.pixel x y c) s = .next (drawPixel Config.params x y (decide (c = 1)) (latch (.pixel x y c) s)) := by
  have hw : (Instr.pixel x y c).wellFormed = true := decide_eq_true ((colour_lt_two_iff c).2 hc)
  rw [exec_eq, execUnder, pixelOp, accept_local _ rfl ha hw, colourBit_of_legal hc]

/-- Settles O52: inside the bounds the write is of one Byte, read back by `readByte_fbSet`; outside there is none. -/
theorem pixelOperation : Obligations.PixelOperation := by
  intro x y c s ha hwf p
  refine ⟨fun hc => ⟨encoded_pixel x y hc, _, exec_pixel x y hc ha, ?_⟩,
    fun h0 h1 => exec_illegal rfl rfl ha (colour_illegal h0 h1)⟩
  have hp : physical Config.params (latch (.pixel x y c) s) x y = p := rfl
  by_cases hin : Spec.inside p
  · rw [drawPixel_inside hp _ hin]
    refine ⟨rfl, fun _ a => ?_, fun hout => absurd hin hout⟩
    have hread := readByte_fbSet hwf p.1.toNat p.2.toNat (decide (c = 1)) a
    simp only [decide_eq_true_eq, eq_comm (b := a)] at hread
    exact hread
  · rw [drawPixel_outside hp _ hin]
    exact ⟨rfl, fun h => absurd h hin, fun _ => rfl⟩

/-! ### GETPIX -/

theorem encoded_getpix (x y : U16) : Spec.Encoded (.getpix x y) [0xB2, lo x, hi x, lo y, hi y] := by
  refine ⟨rfl, ?_⟩
  change some (Instr.getpix (joinBytes (lo x) (hi x)) (joinBytes (lo y) (hi y))) = _
  rw [joinBytes_lo_hi, joinBytes_lo_hi]

theorem exec_getpix (x y : U16) {s : State} (ha : s.active = false) :
    exec (.getpix x y) s = .next (readPixel Config.params x y (latch (.getpix x y) s)) := by
  rw [exec_eq, execUnder, getpixOp, accept_local _ rfl ha rfl]

/-- Settles O53: every GETPIX is legal, and reads on one side of the bounds or the other. -/
theorem getpixOperation : Obligations.GetpixOperation := by
  intro x y s ha p
  have hp : physical Config.params (latch (.getpix x y) s) x y = p := rfl
  refine ⟨encoded_getpix x y, fun hin => ?_, fun hout => ?_⟩
  · rw [exec_getpix x y ha, readPixel_inside hp hin]
    rfl
  · rw [exec_getpix x y ha, readPixel_outside hp hout]
    rfl

end Sys2Proof.Proofs
end

section
/-! PROOFS. SETROT (R208): what it sets, and that every other instruction but PIXEL and GETPIX does the same at every
rotation, down to the µops of a link operation. -/

namespace Sys2Proof.Proofs

open Sys2Proof.Machine

/-! ### The rotation and the operations over the state -/

/-- R23: the state at rotation `v`. -/
def withRot (v : BitVec 2) (s : State) : State := { s with rot := v }

/-- The end of a µop, at rotation `v`. -/
def endWithRot (v : BitVec 2) : UopEnd → UopEnd
  | .done s => .done (withRot v s)
  | .raised s => .raised (withRot v s)

section
variable (v : BitVec 2) (s : State)

theorem latch_withRot (i : Instr) : latch i (withRot v s) = withRot v (latch i s) := by
  cases i <;> rfl

theorem expand_withRot (P : Params) : expand P (withRot v s) = expand P s := rfl

theorem busyLevel_withRot : busyLevel (withRot v s) = busyLevel s := rfl

theorem sampleBusy_withRot : sampleBusy (withRot v s) = withRot v (sampleBusy s) := by
  simp only [sampleBusy, dropBusy_eq]
  rfl

theorem logStall_withRot (log : Bool) : logStall log (withRot v s) = withRot v (logStall log s) := by
  cases log <;> rfl

theorem rstUop_withRot (l : Bool) : rstUop l (withRot v s) = withRot v (rstUop l s) := by
  cases l <;> rfl

theorem writeShadow_withRot (a : Shadow) : writeShadow a (withRot v s) = withRot v (writeShadow a s) := by
  cases a <;> rfl

theorem burstBytes_withRot (bs : List Byte) : burstBytes bs (withRot v s) = withRot v (burstBytes bs s) := by
  induction bs generalizing s with
  | nil => rfl
  | cons b bs ih => exact ih (emit (.dat b) { s with pins := shiftByte b s.pins, bidx := s.bidx + 1 })

theorem sendBurst_withRot (bs : List Byte) : sendBurst bs (withRot v s) = withRot v (sendBurst bs s) := by
  cases bs with
  | nil => rfl
  | cons b bs =>
    exact burstBytes_withRot v { s with bidx := 0, pins := { s.pins with dc := true, cs := false } } (b :: bs)

/-! ### The engine -/

theorem pollLoop_withRot (log : Bool) (n : Nat) :
    pollLoop log n (withRot v s) = endWithRot v (pollLoop log n s) := by
  induction n generalizing s with
  | zero => rfl
  | succ n ih =>
    simp only [pollLoop, busyLevel_withRot, sampleBusy_withRot, logStall_withRot]
    split
    · exact ih { logStall log (sampleBusy s) with pollcnt := (logStall log (sampleBusy s)).pollcnt + 1 }
    · rfl

theorem waitBusy_withRot (P : Params) (log : Bool) :
    waitBusy P log (withRot v s) = endWithRot v (waitBusy P log s) :=
  pollLoop_withRot v { s with pollcnt := 0 } log P.busyMaxPolls

theorem perform_withRot (P : Params) (u : Uop) : perform P u (withRot v s) = endWithRot v (perform P u s) := by
  cases u with
  | rst l => exact congrArg UopEnd.done (rstUop_withRot v s l)
  | dly t => rfl
  | wait => exact waitBusy_withRot v s P false
  | cmd b =>
    simp only [perform, waitBusy_withRot]
    cases waitBusy P true s <;> rfl
  | dat b => rfl
  | burst bs => exact congrArg UopEnd.done (sendBurst_withRot v s bs)
  | sh a => exact congrArg UopEnd.done (writeShadow_withRot v s a)

theorem performOne_withRot (P : Params) (u : Uop) : performOne P u (withRot v s) = withRot v (performOne P u s) := by
  simp only [performOne, perform_withRot]
  cases perform P u s <;> rfl

theorem runProgram_withRot (P : Params) (us : List Uop) :
    runProgram P us (withRot v s) = withRot v (runProgram P us s) := by
  induction us generalizing s with
  | nil => rfl
  | cons u us ih =>
    simp only [runProgram, perform_withRot]
    cases perform P u s with
    | done t => exact ih (advance t)
    | raised t => rfl

/-! ### The instructions -/

theorem accept_withRot (i : Instr) {body : State → State} (h : ∀ t, body (withRot v t) = withRot v (body t)) :
    accept i body (withRot v s) = withRot v (accept i body s) := by
  simp only [accept, latch_withRot, h, apply_ite (withRot v)]
  rfl

theorem linkOp_withRot (P : Params) (i : Instr) (p : List Uop) :
    linkOp P i p (withRot v s) = withRot v (linkOp P i p s) :=
  accept_withRot v s i fun t => runProgram_withRot v (startProgram t) P p

theorem panelCommand_withRot (P : Params) (b : Byte) :
    panelCommand P b (withRot v s) = withRot v (panelCommand P b s) := by
  simp only [panelCommand, performOne_withRot, apply_ite (withRot v)]
  rfl

/-- R208: only the operations of R202's transform, and SETROT itself, depend on the rotation. -/
theorem execUnder_withRot (P : Params) {i : Instr} (hpixel : ∀ x y c, i ≠ .pixel x y c)
    (hgetpix : ∀ x y, i ≠ .getpix x y) (hsetrot : ∀ r, i ≠ .setrot r) :
    execUnder P i (withRot v s) = withRot v (execUnder P i s) := by
  rcases instr_kinds i with h | h | ⟨c, rfl⟩ | ⟨x, y, c, rfl⟩ | ⟨x, y, rfl⟩ | ⟨r, rfl⟩ | rfl
  · rw [execUnder_link P h, execUnder_link P h, latch_withRot, expand_withRot, linkOp_withRot]
  · rw [execUnder_panel P h, execUnder_panel P h, panelCommand_withRot]
  · simp only [execUnder, fillOp]
    exact accept_withRot v s (.fill c) fun _ => rfl
  · exact absurd rfl (hpixel x y c)
  · exact absurd rfl (hgetpix x y)
  · exact absurd rfl (hsetrot r)
  · exact accept_withRot v s .clrf fun _ => rfl

end

/-! ### SETROT -/

theorem exec_setrot {r : Byte} {s : State} (hr : r.toNat ≤ 3) (ha : s.active = false) : exec (.setrot r) s =
    .next { s with opc := 0xB3, a0 := r.zeroExtend 16, rot := BitVec.ofNat 2 r.toNat } := by
  have hw : (Instr.setrot r).wellFormed = true := decide_eq_true hr
  rw [exec_eq, execUnder, setrotOp, accept_local _ rfl ha hw]
  rfl

/-- Settles O54: SETROT writes ROT alone, and the other instructions commute with a change of the rotation. -/
theorem setrotOperation : Obligations.SetrotOperation := by
  intro r s ha
  refine ⟨fun hr => ⟨⟨rfl, decodePacket_setrot hr⟩, exec_setrot hr ha⟩,
    fun hr => exec_illegal rfl rfl ha (decide_eq_false (Nat.not_le.2 hr)), fun i v hp hg hs => ?_⟩
  refine ⟨_, exec_eq i s, (exec_eq i (withRot v s)).trans ?_⟩
  rw [execUnder_withRot v s _ hp hg hs]
  rfl

end Sys2Proof.Proofs
end

section
/-! PROOFS. The busy wait's two ends as whole states (R129, R292), and fault entry at the µop that raised (R296). -/

namespace Sys2Proof.Proofs

open Sys2Proof.Machine

/-! ### The two ends of a busy wait, whole -/

/-- R129: a wait that ends in time changes POLLCNT, STALL, the trace and the BUSY levels still to come. -/
theorem waited_eq (log : Bool) (k : Nat) (s : State) : waited log k s =
    { s with pollcnt := k, stall := s.stall || (log && decide (0 < k)), traceRev := (waited log k s).traceRev
             busy := (waited log k s).busy, draws := (waited log k s).draws } := by
  simp only [waited, sampleBusy, dropBusy_eq, emit, polled, Nat.zero_add]

/-- R296: a wait that reaches its bound changes what fault entry names, and what its samples left. -/
theorem expired_eq {P : Params} (hP : 1 ≤ P.busyMaxPolls) (log : Bool) (s : State) : expired P log s =
    { s with pollcnt := P.busyMaxPolls, stall := s.stall || log, fault := true, cause := 1, fop := s.opc
             fupc := s.upc, active := false, upc := 0, bidx := 0
             pins := { s.pins with sck := false, cs := true, dc := true }
             traceRev := (expired P log s).traceRev, busy := (expired P log s).busy
             draws := (expired P log s).draws } := by
  rw [← expired_stall hP log s]
  simp only [expired, faultEntry, polled, Nat.zero_add]

/-- R43: a wait that reaches its bound uses up that many samples, and no other. -/
theorem upcomingBusy_expired (P : Params) (log : Bool) (s : State) (i : Nat) :
    upcomingBusy (expired P log s) i = upcomingBusy s (P.busyMaxPolls + i) :=
  (upcomingBusy_congr rfl rfl i).trans
    ((upcomingBusy_polled log P.busyMaxPolls i _).trans (upcomingBusy_congr rfl rfl _))

/-- Settles O23: a first low sample within the bound ends the wait there, and without one it expires. -/
theorem busyWaitIsExact : Obligations.BusyWaitIsExact := by
  refine fun P log s hP => ⟨fun k hk hlt => ?_, fun hs => ?_⟩
  · exact ⟨_, waitBusy_waited log hk hlt, congrArg State.pollcnt (waited_eq log k s), trace_waited log hk,
      fun j => upcomingBusy_waited log k j s, waited_eq log k s⟩
  · exact ⟨_, waitBusy_expired log hs, congrArg State.pollcnt (expired_eq hP log s), trace_expired P log s,
      upcomingBusy_expired P log s, rfl, expired_eq hP log s⟩

/-! ### The µop that raised -/

theorem eq_expired_of_waitBusy {P : Params} {log : Bool} {s t : State} (h : waitBusy P log s = .raised t) :
    t = expired P log s := by
  rcases waitBusy_cases P log s with ⟨k, -, -, -, he⟩ | ⟨-, he⟩
  · rw [he] at h; cases h
  · rw [he] at h; cases h; rfl

/-- R120, R124: only a WAIT and the precheck of a CMD raise, and the latter alone logs its samples. -/
theorem eq_expired_of_perform {P : Params} {u : Uop} {s t : State} (h : perform P u s = .raised t) :
    u.waits = true ∧ t = expired P (decide (u ≠ .wait)) s := by
  cases u with
  | wait => exact ⟨rfl, eq_expired_of_waitBusy h⟩
  | cmd b =>
    rw [perform] at h
    split at h
    · cases h
    · rename_i hw
      cases h
      exact ⟨rfl, eq_expired_of_waitBusy hw⟩
  | rst _ | dly _ | dat _ | burst _ | sh _ => cases h

/-- R131: the µops at which RST is low are the first hold of the panel reset and the `RST 1` after it. -/
theorem currentUop_of_resetPinLow (P : Params) {s : State} (h : resetPinLow s.opc s.upc = true) :
    currentUop P s = some (.dly .rstLow) ∨ currentUop P s = some (.rst true) := by
  simp only [resetPinLow, Bool.and_eq_true, Bool.or_eq_true, beq_iff_eq] at h
  obtain ⟨hopc | hopc, hupc | hupc⟩ := h <;> simp [currentUop, expand, hopc, hupc, initSeq, resetSeq]

/-- R131, R296: no µop that waits is among them. -/
theorem resetPinLow_of_waits {P : Params} {s : State} {u : Uop} (hc : currentUop P s = some u)
    (hu : u.waits = true) : resetPinLow s.opc s.upc = false := by
  rw [← Bool.not_eq_true]
  intro h
  rcases currentUop_of_resetPinLow P h with he | he
  all_goals
    obtain rfl := Option.some.inj (hc.symm.trans he)
    cases hu

/-- Settles O60: the state a raising µop leaves is that of the expired wait, and the invariant gives the pins before
it. -/
theorem faultEntryLeavesTheRecordAndTheIdleLink : Obligations.FaultEntryLeavesTheRecordAndTheIdleLink := by
  refine ⟨fun P u s t hP h => ?_, fun s u hinv ha hc hu => ⟨?_, hinv.link⟩⟩
  · obtain ⟨hu, rfl⟩ := eq_expired_of_perform h
    exact ⟨hu, trace_expired P _ s, rfl, rfl, expired_eq hP _ s⟩
  · rw [hinv.resetPin ha, resetPinLow_of_waits hc hu]
    rfl

end Sys2Proof.Proofs
end

section
/-! PROOFS. Operations accepted while FAULT is set (R300): the refusal of those that drive the link, and that FAULT
has no part in the others. -/

namespace Sys2Proof.Proofs

open Sys2Proof.Machine

/-- R27: the state with FAULT the other way. -/
def toggleFault (s : State) : State := { s with fault := !s.fault }

theorem latch_toggleFault (i : Instr) (s : State) : latch i (toggleFault s) = toggleFault (latch i s) := by
  cases i <;> rfl

/-- R300: acceptance of an operation that does not drive the link does not look at FAULT. -/
theorem accept_toggleFault {i : Instr} {body : State → State} (hl : isLink i = false)
    (h : ∀ t, body (toggleFault t) = toggleFault (body t)) (s : State) :
    accept i body (toggleFault s) = toggleFault (accept i body s) := by
  simp only [accept, latch_toggleFault, h, hl, Bool.false_and, Bool.false_eq_true, if_false, apply_ite toggleFault]
  rfl

/-- R300: a framebuffer operation does the same with FAULT and without it. -/
theorem execUnder_toggleFault (P : Params) {i : Instr} (hl : isLink i = false) (hp : isPanel i = false)
    (hc : i ≠ .clrf) (s : State) : execUnder P i (toggleFault s) = toggleFault (execUnder P i s) := by
  rcases instr_kinds i with h | h | ⟨c, rfl⟩ | ⟨x, y, c, rfl⟩ | ⟨x, y, rfl⟩ | ⟨r, rfl⟩ | rfl
  · exact absurd (h.symm.trans hl) (by decide)
  · exact absurd (h.symm.trans hp) (by decide)
  · exact accept_toggleFault rfl (body := fun t => { t with fb := fillBytes (rep8 (colourBit c)) }) (fun _ => rfl) s
  · refine accept_toggleFault rfl (fun t => ?_) s
    simp only [drawPixel, apply_ite toggleFault]
    rfl
  · refine accept_toggleFault rfl (fun t => ?_) s
    simp only [readPixel, apply_ite toggleFault]
    rfl
  · exact accept_toggleFault rfl (body := fun t => { t with rot := rotationBits r }) (fun _ => rfl) s
  · exact absurd rfl hc

/-- R300: REJ is for link operations. -/
theorem execUnder_rej (P : Params) {i : Instr} (hl : isLink i = false) (hp : isPanel i = false) (hc : i ≠ .clrf)
    (s : State) : (execUnder P i s).rej = s.rej := by
  rcases local_cases P hl hp s with ⟨-, he⟩ | ⟨-, -, he⟩ | ⟨-, -, -, he, -⟩ | ⟨-, h, -⟩
  · rw [he]
  · rw [he, rejectIllegal_rej]
  · exact (congrArg State.rej he).trans (latch_rej s i)
  · exact absurd h hc

theorem exec_clrf {s : State} (ha : s.active = false) : exec .clrf s = .next (clearFault (latch .clrf s)) := by
  rw [exec_eq, execUnder, clrfOp, accept_local _ rfl ha rfl]

/-- Settles O21: a link operation is refused with its latches loaded; the others do not look at FAULT. -/
theorem linkOperationsAreRefusedUnderFault : Obligations.LinkOperationsAreRefusedUnderFault := by
  refine ⟨fun i s hl hw ha hf => ⟨_, exec_eq i s, latches_of_link hl hw ha, ?_⟩, fun i s hl hp hc => ?_,
    fun s ha => ⟨_, exec_clrf ha, exec_clrf ha, rfl⟩⟩
  · rw [execUnder_link_refused hl hw ha hf]
    exact congrArg refuseLink (latch_eq i s)
  · refine ⟨_, exec_eq i s, (exec_eq i (toggleFault s)).trans ?_, execUnder_rej _ hl hp hc s⟩
    exact congrArg Host.Outcome.next (execUnder_toggleFault _ hl hp hc s)

end Sys2Proof.Proofs
end

section
/-! PROOFS. A panel that never lowers BUSY (R291): the first µop of each operation that waits for it, and the values
CAUSE can take. -/

namespace Sys2Proof.Proofs

open Sys2Proof.Machine

/-! ### The first µop that waits -/

section
variable (P : Params) (em : Byte)

/-- R154: InitDisplay begins with a command, whose precheck waits. -/
theorem findIdx?_waits_initDispSeq : (initDispSeq P em).findIdx? Uop.waits = some 0 := by
  simp [initDispSeq, regWrite, List.findIdx?_cons, Uop.waits]

/-- A micro-program that begins with InitDisplay waits first where InitDisplay does. -/
theorem findIdx?_waits_initDispSeq_append (q : List Uop) :
    (initDispSeq P em ++ q).findIdx? Uop.waits = some 0 := by
  rw [List.findIdx?_append, findIdx?_waits_initDispSeq, Option.some_or]

theorem findIdx?_waits_initFullSeq_append (q : List Uop) :
    (initFullSeq P em ++ q).findIdx? Uop.waits = some 0 := by
  simp only [initFullSeq, List.append_assoc, findIdx?_waits_initDispSeq_append]

theorem findIdx?_waits_initPartSeq_append (q : List Uop) :
    (initPartSeq P em ++ q).findIdx? Uop.waits = some 0 := by
  simp only [initPartSeq, List.append_assoc, findIdx?_waits_initDispSeq_append]

end

/-- R291: of each link operation, `Spec.firstWait` names the first µop of its micro-program that waits. -/
theorem findIdx?_waits_expand (P : Params) (s : State) {i : Instr} (hl : isLink i = true) :
    (expand P (latch i s)).findIdx? Uop.waits = Spec.firstWait i := by
  cases i with
  | initdisp em => rw [expand_initdisp, findIdx?_waits_initDispSeq, Spec.firstWait]
  | initfull em =>
    rw [expand_initfull, ← List.append_nil (initFullSeq P em), findIdx?_waits_initFullSeq_append, Spec.firstWait]
  | initpart em =>
    rw [expand_initpart, ← List.append_nil (initPartSeq P em), findIdx?_waits_initPartSeq_append, Spec.firstWait]
  | update =>
    simp only [expand_update, updateSeq, List.append_assoc, findIdx?_waits_initFullSeq_append, Spec.firstWait]
  | erase =>
    simp only [expand_erase, eraseSeq, List.append_assoc, findIdx?_waits_initFullSeq_append, Spec.firstWait]
  | updwin x y w h =>
    by_cases he : w = 0 ∨ h = 0 ∨ 128 ≤ x.toNat ∨ 250 ≤ y.toNat
    · rw [expand_updwin_empty P s he, Spec.firstWait, if_pos he]
      rfl
    · have hclip : clip x.toNat y.toNat w.toNat h.toNat ≠ none :=
        mt (clip_eq_none_iff ..).1 (by simpa [← BitVec.toNat_inj] using he)
      obtain ⟨r, hr⟩ := Option.ne_none_iff_exists'.1 hclip
      rw [expand_updwin P s ((clip_eq_some_iff ..).1 hr), Spec.firstWait, if_neg he]
      simp only [updwinRectSeq, List.append_assoc, findIdx?_waits_initPartSeq_append]
  | reset | wcmd | wdat | wdatn | waitb | setem | updfull | updpart | pwron | pwroff | init => rfl
  | _ => cases hl

/-- The first µop that waits, with those before it. -/
theorem split_at_firstWait {p : List Uop} {n : Nat} (h : p.findIdx? Uop.waits = some n) :
    ∃ u post, p = p.take n ++ u :: post ∧ (p.take n).length = n ∧ u.waits = true ∧
      ∀ v ∈ p.take n, v.waits = false := by
  obtain ⟨hn, hu, hpre⟩ := List.findIdx?_eq_some_iff_getElem.1 h
  refine ⟨p[n], p.drop (n + 1), ?_, List.length_take_of_le (Nat.le_of_lt hn), hu, fun v hv => ?_⟩
  · rw [← List.drop_eq_getElem_cons hn, List.take_append_drop]
  · obtain ⟨j, hj, rfl⟩ := List.mem_take_iff_getElem.1 hv
    simpa using hpre j (by omega)

/-- R133, R134, R186: the link operations that wait for nothing write no shadow. -/
theorem shadowsAfter_expand_of_waitless (P : Params) (s : State) {i : Instr} (hl : isLink i = true)
    (hn : Spec.firstWait i = none) (h : Shadows) : shadowsAfter (expand P (latch i s)) h = h := by
  cases i with
  | wdat | wdatn => rfl
  | updwin x y w h =>
    have he : w = 0 ∨ h = 0 ∨ 128 ≤ x.toNat ∨ 250 ≤ y.toNat := by
      by_contra hne
      rw [Spec.firstWait, if_neg hne] at hn
      cases hn
    rw [expand_updwin_empty P s he, shadowsAfter_nil]
  | reset | wcmd | waitb | initdisp | setem | initfull | initpart | updfull | updpart | pwron | pwroff | init
  | update | erase => cases hn
  | _ => cases hl

section
variable {i : Instr} {s : State} (hl : isLink i = true) (hw : i.wellFormed = true) (ha : s.active = false)
  (hf : s.fault = false)

include hl hw ha hf

/-- R291: with BUSY stuck the first µop that waits raises. -/
theorem exec_stuck_at_firstWait {n : Nat} (hn : Spec.firstWait i = some n) (hs : StuckBusy Config.params s) :
    ∃ t, exec i s = .next t ∧ FaultedAt i n (linkEvents ((expand Config.params (latch i s)).take n))
      (shadowsAfter ((expand Config.params (latch i s)).take n) s.shadows) s t := by
  obtain ⟨u, post, hp, hlen, hu, hpre⟩ := split_at_firstWait ((findIdx?_waits_expand Config.params s hl).trans hn)
  obtain ⟨r, -, hr, hF, -⟩ := exec_stuck hl hw ha hf hp hpre hu hs
  rw [hlen] at hF
  exact ⟨r, hr, hF⟩

/-- R291: a link operation that waits for nothing completes, whatever BUSY does. -/
theorem exec_waitless (hn : Spec.firstWait i = none) :
    ∃ t, exec i s = .next t ∧ Completed i (linkEvents (expand Config.params (latch i s))) s.shadows s t := by
  have hquiet := List.findIdx?_eq_none_iff.1 ((findIdx?_waits_expand Config.params s hl).trans hn)
  have hcount : waitCount (expand Config.params (latch i s)) = 0 :=
    List.countP_eq_zero.2 fun u hu => by simp [hquiet u hu]
  have hanswers : AnswersAll Config.params (expand Config.params (latch i s)) s := by
    intro k hk
    rw [hcount, Nat.zero_mul] at hk
    exact absurd hk (Nat.not_lt_zero k)
  have hdone := exec_completed hl hw ha hf hanswers
  rwa [shadowsAfter_expand_of_waitless _ _ hl hn] at hdone

end

/-! ### CAUSE -/

theorem cause_of_progress {P : Params} {us : List Uop} {s t : State} (h : Progress P us s t) : t.cause = s.cause :=
  congrArg FaultRecord.cause h.record

/-- R291: the one fault writes CAUSE 1. -/
theorem cause_of_raised {P : Params} {u : Uop} {s t : State} (h : Raised P u s t) : t.cause = 1 := by
  obtain ⟨log, rfl⟩ := h.entry
  rfl

/-- R291: an instruction leaves CAUSE, clears it, or makes it 1. -/
theorem execUnder_cause (i : Instr) (s : State) : (execUnder Config.params i s).cause = s.cause ∨
    (execUnder Config.params i s).cause = 0 ∨ (execUnder Config.params i s).cause = 1 := by
  by_cases hl : isLink i = true
  · rcases execUnder_link_cases (s := s) hl with
      ⟨-, he⟩ | ⟨-, -, he⟩ | ⟨-, -, he⟩ | ⟨-, -, -, ⟨t, he, hp⟩ | ⟨pre, u, post, t, -, -, hr⟩⟩
    · exact .inl (by rw [he])
    · exact .inl (by rw [he, rejectIllegal_cause])
    · exact .inl (by rw [he, refuseLink_cause, latch_cause])
    · exact .inl (by rw [he, finishProgram_cause, cause_of_progress hp, startProgram_cause, latch_cause])
    · exact .inr (.inr (cause_of_raised hr))
  · rw [Bool.not_eq_true] at hl
    by_cases hp : isPanel i = true
    · rw [execUnder_panel _ hp, panelCommand]
      split
      · rcases performOne_cases Config.params (.cmd (opcodeOf i)) s with h | h
        · exact .inl (cause_of_progress h)
        · exact .inr (.inr (cause_of_raised h))
      · exact .inl (rejectIllegal_cause s)
    · rw [Bool.not_eq_true] at hp
      rcases local_cases Config.params hl hp s with ⟨-, he⟩ | ⟨-, -, he⟩ | ⟨-, -, -, he, -⟩ | ⟨-, -, he⟩
      · exact .inl (by rw [he])
      · exact .inl (by rw [he, rejectIllegal_cause])
      · exact .inl ((congrArg State.cause he).trans (latch_cause s i))
      · exact .inr (.inl (by rw [he, clearFault_cause]))

/-- Settles O49: an operation stops at its first µop that waits or has none; and CAUSE is kept, cleared or 1. -/
theorem stuckPanelFaultsAtTheFirstWait : Obligations.StuckPanelFaultsAtTheFirstWait := by
  refine ⟨fun i s hl hw ha hf hs => ?_, fun i s t hs he => ?_⟩
  · cases hn : Spec.firstWait i with
    | some n => exact exec_stuck_at_firstWait hl hw ha hf hn hs
    | none => exact exec_waitless hl hw ha hf hn
  · obtain rfl : execUnder Config.params i s = t := by rw [exec_eq] at he; injection he
    rcases execUnder_cause i s with h | h
    · rwa [h]
    · exact h

end Sys2Proof.Proofs
end

section
/-! PROOFS. No command Byte while the panel is busy (R330): the samples before each command of the trace, the waits
after each activation of a micro-program, and the data µops, which take no sample. -/

namespace Sys2Proof.Proofs

open Sys2Proof.Machine

/-! ### Every command follows a sample that found BUSY low -/

/-- R330: what becomes of `s` with its commands guarded has them guarded too. -/
def KeepsGuard (s t : State) : Prop := commandsGuarded s.traceRev = true → commandsGuarded t.traceRev = true

theorem keepsGuard_of_traceRev_eq {s t : State} (h : t.traceRev = s.traceRev) : KeepsGuard s t := by
  rw [KeepsGuard, h]
  exact id

theorem KeepsGuard.trans {s t r : State} (h : KeepsGuard s t) (g : KeepsGuard t r) : KeepsGuard s r :=
  fun hs => g (h hs)

/-- R129, R296: a µop that raised has appended samples only. -/
theorem keepsGuard_of_raised {P : Params} {u : Uop} {s t : State} (h : Raised P u s t) : KeepsGuard s t := by
  obtain ⟨log, rfl⟩ := h.entry
  exact fun hs => (guarded_polls P.busyMaxPolls true s.traceRev).trans hs

theorem keepsGuard_performOne (P : Params) (u : Uop) (s : State) : KeepsGuard s (performOne P u s) :=
  (performOne_cases P u s).elim Progress.guarded keepsGuard_of_raised

theorem keepsGuard_link {i : Instr} (hl : isLink i = true) (s : State) :
    KeepsGuard s (execUnder Config.params i s) := by
  have hstart : KeepsGuard s (startProgram (latch i s)) := keepsGuard_of_traceRev_eq (by simp)
  rcases execUnder_link_cases (s := s) hl with
    ⟨-, he⟩ | ⟨-, -, he⟩ | ⟨-, -, he⟩ | ⟨-, -, -, ⟨t, he, hp⟩ | ⟨pre, u, post, t, -, hp, hr⟩⟩
  · exact keepsGuard_of_traceRev_eq (by rw [he])
  · exact keepsGuard_of_traceRev_eq (by simp [he])
  · exact keepsGuard_of_traceRev_eq (by simp [he])
  · rw [he]
    exact hstart.trans hp.guarded
  · exact (hstart.trans hp.guarded).trans (keepsGuard_of_raised hr)

theorem keepsGuard_panel (P : Params) {i : Instr} (hp : isPanel i = true) (s : State) :
    KeepsGuard s (execUnder P i s) := by
  rw [execUnder_panel P hp, panelCommand]
  split
  · exact keepsGuard_performOne P _ s
  · exact keepsGuard_of_traceRev_eq (rejectIllegal_traceRev s)

/-- R16: an operation that is neither a link operation nor a panel command leaves the trace. -/
theorem traceRev_local (P : Params) {i : Instr} (hl : isLink i = false) (hp : isPanel i = false) (s : State) :
    (execUnder P i s).traceRev = s.traceRev := by
  rcases local_cases P hl hp s with ⟨-, he⟩ | ⟨-, -, he⟩ | ⟨-, -, -, he, -⟩ | ⟨-, -, he⟩
  · rw [he]
  · rw [he, rejectIllegal_traceRev]
  · exact (congrArg State.traceRev he).trans (latch_traceRev s i)
  · rw [he, clearFault_traceRev, latch_traceRev]

theorem keepsGuard_execUnder (i : Instr) (s : State) : KeepsGuard s (execUnder Config.params i s) := by
  cases hl : isLink i with
  | true => exact keepsGuard_link hl s
  | false =>
    cases hp : isPanel i with
    | true => exact keepsGuard_panel _ hp s
    | false => exact keepsGuard_of_traceRev_eq (traceRev_local _ hl hp s)

/-- R92: acceptance sends nothing. -/
theorem traceRev_accept_startProgram (i : Instr) (s : State) : (accept i startProgram s).traceRev = s.traceRev := by
  rcases accept_cases i startProgram s with ⟨-, he⟩ | ⟨-, -, he⟩ | ⟨-, -, -, -, he⟩ | ⟨-, -, -, he⟩ <;> simp [he]

theorem keepsGuard_takes {bs : List Byte} {u t : State} (h : Takes bs u t) : KeepsGuard u t := by
  rcases h with ⟨-, rfl⟩ | ⟨i, -, rfl | ⟨-, rfl⟩⟩
  · exact keepsGuard_of_traceRev_eq (rejectIllegal_traceRev u)
  · exact keepsGuard_execUnder i u
  · exact keepsGuard_of_traceRev_eq (traceRev_accept_startProgram i u)

theorem keepsGuard_runsOn {s u t : State} (h : RunsOn s u t) : KeepsGuard u t := by
  rcases h with ⟨-, rfl⟩ | ⟨o, -, rfl⟩
  · exact keepsGuard_of_traceRev_eq (finishProgram_traceRev u)
  · exact keepsGuard_performOne _ o u

/-- R330: a step keeps the commands guarded, whatever it does; block reset empties the trace (R46). -/
theorem keepsGuard_step {s t : State} (h : step s = .next t) : KeepsGuard s t := by
  rcases step_cases h with ⟨r, -, rfl⟩ | ⟨-, r, -, hrun⟩ | ⟨-, -, rfl⟩ | ⟨-, r, -, rfl⟩ | ⟨-, bs, r, -, htake⟩
  · exact fun _ => rfl
  · exact fun hs => keepsGuard_runsOn hrun hs
  · exact id
  · exact id
  · exact fun hs => keepsGuard_takes htake hs

/-! ### Every activation is followed by a WAIT

The generators' lemmas are proved `by rfl`, not by the term `rfl`: simp then keeps them as rewrites, which it can use
for the hypothesis of `activationsAwaited_append`. -/

/-- R150: the µops after an activation begin with a WAIT, with at most a shadow write before it. -/
def beginsWithWait : List Uop → Bool
  | .wait :: _ | .sh _ :: .wait :: _ => true
  | _ => false

theorem activationsAwaited_cmd (b : Byte) (us : List Uop) : activationsAwaited (.cmd b :: us) =
    ((if b = 0x20 then beginsWithWait us else true) && activationsAwaited us) := rfl

@[simp] theorem activationsAwaited_nil : activationsAwaited [] = true := by rfl

@[simp] theorem activationsAwaited_burst (bs : List Byte) (us : List Uop) :
    activationsAwaited (.burst bs :: us) = activationsAwaited us := by rfl

@[simp] theorem activationsAwaited_dly (t : Delay) (us : List Uop) :
    activationsAwaited (.dly t :: us) = activationsAwaited us := by rfl

theorem beginsWithWait_append {p : List Uop} (h : beginsWithWait p = true) (q : List Uop) :
    beginsWithWait (p ++ q) = true := by
  unfold beginsWithWait at h
  split at h
  · rfl
  · rfl
  · cases h

/-- The activations of a micro-program that awaits its own are awaited whatever follows. -/
@[simp] theorem activationsAwaited_append {p : List Uop} (hp : activationsAwaited p = true) (q : List Uop) :
    activationsAwaited (p ++ q) = activationsAwaited q := by
  induction p with
  | nil => rfl
  | cons u us ih =>
    cases u with
    | cmd b =>
      rw [activationsAwaited_cmd, Bool.and_eq_true] at hp
      obtain ⟨hwait, hus⟩ := hp
      rw [List.cons_append, activationsAwaited_cmd, ih hus]
      by_cases hb : b = 0x20
      · rw [if_pos hb] at hwait ⊢
        rw [beginsWithWait_append hwait, Bool.true_and]
      · rw [if_neg hb, Bool.true_and]
    | rst _ | dly _ | wait | dat _ | burst _ | sh _ => exact ih hp

/-- A register write other than the activation has none to await. -/
@[simp] theorem activationsAwaited_regWrite {c : Byte} (hc : c ≠ 0x20) (ds : List Byte) :
    activationsAwaited (regWrite c ds) = true := by
  have hdata : activationsAwaited (ds.map .dat) = true := by
    induction ds with
    | nil => rfl
    | cons d ds ih => exact ih
  rw [regWrite, activationsAwaited_cmd, if_neg hc, hdata]
  rfl

@[simp] theorem activationsAwaited_ramArea (w : Window) : activationsAwaited (ramArea w) = true := by rfl

@[simp] theorem activationsAwaited_windowAndPointer (w : Window) :
    activationsAwaited (windowAndPointer w) = true := by rfl

@[simp] theorem activationsAwaited_setEmSeq (em : Byte) : activationsAwaited (setEmSeq em) = true := by rfl

@[simp] theorem activationsAwaited_lutSeq (P : Params) (full : Bool) :
    activationsAwaited (lutSeq P full) = true := by rfl

/-- R150: the activation pair ends with its WAIT. -/
@[simp] theorem activationsAwaited_act (m : Byte) : activationsAwaited (act m) = true := by rfl

/-- R150: PWR is set between the activation and its WAIT. -/
@[simp] theorem activationsAwaited_pwrOnSeq : activationsAwaited pwrOnSeq = true := by rfl

@[simp] theorem activationsAwaited_pwrOffSeq : activationsAwaited pwrOffSeq = true := by rfl

@[simp] theorem activationsAwaited_initDispSeq (P : Params) (em : Byte) :
    activationsAwaited (initDispSeq P em) = true := by
  simp [initDispSeq]

@[simp] theorem activationsAwaited_initFullSeq (P : Params) (em : Byte) :
    activationsAwaited (initFullSeq P em) = true := by
  simp [initFullSeq]

@[simp] theorem activationsAwaited_initPartSeq (P : Params) (em : Byte) :
    activationsAwaited (initPartSeq P em) = true := by
  simp [initPartSeq]

/-- R181: neither of the two streams activates anything; the gap and the re-pointing are to await their own. -/
@[simp] theorem activationsAwaited_dualStream (P : Params) (bs : List Byte) {gap rp : List Uop}
    (hg : activationsAwaited gap = true) (hr : activationsAwaited rp = true) :
    activationsAwaited (dualStream P bs gap rp) = true := by
  have hrepoint : activationsAwaited (if P.repointSecondBurst then rp else []) = true := by
    split
    · exact hr
    · rfl
  simp [dualStream, activationsAwaited_cmd, hg, hrepoint]

theorem activationsAwaited_updateSeq (P : Params) (fb : List Host.Cell) :
    activationsAwaited (updateSeq P fb) = true := by
  simp [updateSeq, updFullSeq]

theorem activationsAwaited_eraseSeq (P : Params) : activationsAwaited (eraseSeq P) = true := by
  simp [eraseSeq, updFullSeq]

/-- R186: an empty rectangle activates nothing. -/
theorem activationsAwaited_updwinSeq (P : Params) (fb : List Host.Cell) (x y w h : U16) :
    activationsAwaited (updwinSeq P fb x y w h) = true := by
  unfold updwinSeq
  split
  · rfl
  · simp [updwinRectSeq, updPartSeq]

/-- R235, R330: of each sequencer and refresh operation, the generator of its micro-program awaits its activations. -/
theorem activationsAwaited_expand (P : Params) {i : Instr} (s : State) (h : Spec.sequenced i = true) :
    activationsAwaited (expand P (latch i s)) = true := by
  cases i with
  | initdisp em => exact activationsAwaited_initDispSeq P _
  | setem em => exact activationsAwaited_setEmSeq _
  | initfull em => exact activationsAwaited_initFullSeq P _
  | initpart em => exact activationsAwaited_initPartSeq P _
  | updfull | updpart | pwron | pwroff | init => rfl
  | update => exact activationsAwaited_updateSeq P _
  | updwin x y w h => exact activationsAwaited_updwinSeq P _ _ _ _ _
  | erase => exact activationsAwaited_eraseSeq P
  | _ => cases h

/-! ### Data take no sample -/

theorem trace_sendData (b : Byte) (s : State) : (sendData b s).trace = s.trace ++ [.dat b] := trace_emit _ _

/-- R126: a burst moves pins, leaves BIDX at 0, and appends its Bytes to the trace. -/
theorem sendBurst_eq (bs : List Byte) (s : State) : sendBurst bs s =
    { s with pins := (sendBurst bs s).pins, bidx := 0, traceRev := (bs.map .dat).reverse ++ s.traceRev } := by
  cases bs with
  | nil => rfl
  | cons b bs => exact burstBytes_eq (b :: bs) _

theorem trace_sendBurst (bs : List Byte) (s : State) : (sendBurst bs s).trace = s.trace ++ bs.map .dat := by
  simp [State.trace, congrArg State.traceRev (sendBurst_eq bs s)]

/-- Settles O5: every step keeps the commands guarded, each generator awaits its activations, and the data µops
append their Bytes and leave BUSY's levels to come as they are. -/
theorem noCommandWhileBusy : Obligations.NoCommandWhileBusy := by
  refine ⟨fun s t hs h => keepsGuard_step h hs, fun P _ s h => activationsAwaited_expand P s h, fun P u s hu => ?_⟩
  rcases hu with ⟨b, rfl⟩ | ⟨bs, rfl⟩
  · exact ⟨sendData b s, rfl, trace_sendData b s, rfl, rfl⟩
  · exact ⟨sendBurst bs s, rfl, trace_sendBurst bs s, by rw [sendBurst_eq], by rw [sendBurst_eq]⟩

end Sys2Proof.Proofs
end

section
/-! PROOFS. A running operation (R24, R25, R121): its micro-program does not change under it, and a µop that completes
moves UPC by exactly one. -/

namespace Sys2Proof.Proofs

open Sys2Proof.Machine

/-- R25: the micro-program is a function of the latches and the framebuffer. -/
theorem expand_congr (P : Params) {s t : State} (hl : t.latches = s.latches) (hfb : t.fb = s.fb) :
    expand P t = expand P s := by
  simp only [State.latches, Latches.mk.injEq] at hl
  obtain ⟨hopc, h0, h1, h2, h3, hp⟩ := hl
  simp only [expand, hopc, h0, h1, h2, h3, hp, hfb]

theorem expand_of_progress {P : Params} {us : List Uop} {s t : State} (h : Progress P us s t) :
    expand P t = expand P s := expand_congr P h.latches h.fb

/-- R296: fault entry leaves the latches and the framebuffer. -/
theorem expand_of_raised {P : Params} {u : Uop} {s t : State} (h : Raised P u s t) : expand P t = expand P s := by
  obtain ⟨log, rfl⟩ := h.entry
  rfl

theorem upc_lt_of_currentUop {P : Params} {s : State} {u : Uop} (h : currentUop P s = some u) :
    s.upc.toNat < (expand P s).length := (List.getElem?_eq_some_iff.1 h).1

theorem currentUop_of_drop {P : Params} {s : State} {u : Uop} {us : List Uop}
    (h : (expand P s).drop s.upc.toNat = u :: us) : currentUop P s = some u := by
  rw [currentUop, ← Nat.add_zero s.upc.toNat, ← List.getElem?_drop, h, List.getElem?_cons_zero]

theorem currentUop_of_drop_nil {P : Params} {s : State} (h : (expand P s).drop s.upc.toNat = []) :
    currentUop P s = none := List.getElem?_eq_none_iff.2 (List.drop_eq_nil_iff.1 h)

/-- R24, U16: UPC does not wrap, since every micro-program is shorter than 65536 µops. -/
theorem upc_toNat_of_progress {s t : State} {u : Uop} (hc : currentUop Config.params s = some u)
    (h : Progress Config.params [u] s t) : t.upc.toNat = s.upc.toNat + 1 := by
  have hlt := upc_lt_of_currentUop hc
  have hlen := expand_length_lt params_wf s
  rw [h.upc, BitVec.toNat_add]
  exact Nat.mod_eq_of_lt (Nat.lt_of_le_of_lt hlt hlen)

/-- R121: the µops still to perform, after the current one has completed. -/
theorem drop_of_progress {s t : State} {u : Uop} {us : List Uop}
    (hd : (expand Config.params s).drop s.upc.toNat = u :: us) (h : Progress Config.params [u] s t) :
    (expand Config.params t).drop t.upc.toNat = us := by
  rw [expand_of_progress h, upc_toNat_of_progress (currentUop_of_drop hd) h, ← List.drop_drop, hd]
  rfl

end Sys2Proof.Proofs
end

section
/-! PROOFS. The machine's invariant (R24, R26, R29, R72, R131, R291): it holds after reset, and every step keeps it. -/

namespace Sys2Proof.Proofs

open Sys2Proof.Machine

/-! ### The shadow writes of the micro-programs -/

/-- R151, R186: byte columns and rows of the panel. -/
def windowFits (w : Window) : Bool :=
  decide (w.xs.toNat < 16 ∧ w.xe.toNat < 16 ∧ w.ys.toNat < 250 ∧ w.ye.toNat < 250)

/-- R29: of the shadow writes only those of LUTSEL and the window have a range to keep. -/
def shadowInRange : Uop → Bool
  | .sh (.lutsel v) => v != 3
  | .sh (.window w) => windowFits w
  | _ => true

/-- R29: every shadow write of a micro-program is in range. -/
def shadowsInRange (p : List Uop) : Bool := p.all shadowInRange

@[simp] theorem shadowsInRange_append (p q : List Uop) :
    shadowsInRange (p ++ q) = (shadowsInRange p && shadowsInRange q) := List.all_append

@[simp] theorem shadowsInRange_regWrite (c : Byte) (ds : List Byte) : shadowsInRange (regWrite c ds) = true := by
  simp [shadowsInRange, regWrite, shadowInRange]

@[simp] theorem shadowsInRange_windowAndPointer (w : Window) :
    shadowsInRange (windowAndPointer w) = windowFits w := Bool.and_true _

/-- R152: the full-panel windows of the four entry modes lie in the panel. -/
@[simp] theorem windowFits_entryWindow (e : BitVec 2) : windowFits (entryWindow e) = true := by
  revert e; decide

@[simp] theorem shadowsInRange_setEmSeq (em : Byte) : shadowsInRange (setEmSeq em) = true := by
  rw [setEmSeq, shadowsInRange_append, shadowsInRange_windowAndPointer, windowFits_entryWindow]
  rfl

@[simp] theorem shadowsInRange_ramArea_fullWindow : shadowsInRange (ramArea fullWindow) = true := rfl

@[simp] theorem shadowsInRange_initDispSeq (P : Params) (em : Byte) : shadowsInRange (initDispSeq P em) = true := by
  simp [initDispSeq]

@[simp] theorem shadowsInRange_lutSeq (P : Params) (full : Bool) : shadowsInRange (lutSeq P full) = true := by
  cases full <;> rfl

@[simp] theorem shadowsInRange_pwrOnSeq : shadowsInRange pwrOnSeq = true := rfl

@[simp] theorem shadowsInRange_initFullSeq (P : Params) (em : Byte) : shadowsInRange (initFullSeq P em) = true := by
  simp [initFullSeq]

@[simp] theorem shadowsInRange_initPartSeq (P : Params) (em : Byte) : shadowsInRange (initPartSeq P em) = true := by
  simp [initPartSeq]

/-- R181: re-pointing, where it is asked for, writes the window again. -/
theorem shadowsInRange_dualStream (P : Params) (bs : List Byte) {gap : List Uop} {w : Window}
    (hg : shadowsInRange gap = true) (hw : windowFits w = true) :
    shadowsInRange (dualStream P bs gap (windowAndPointer w)) = true := by
  have hstream (c : Byte) : shadowsInRange [.cmd c, .burst bs] = true := rfl
  simp only [dualStream, shadowsInRange_append, hstream, hg]
  split
  · simp [hw]
  · rfl

theorem shadowsInRange_updateSeq (P : Params) (fb : List Host.Cell) : shadowsInRange (updateSeq P fb) = true := by
  have hdual := shadowsInRange_dualStream P (image P fb) (gap := []) rfl (windowFits_entryWindow P.emUpdate)
  have hend : shadowsInRange updFullSeq = true ∧ shadowsInRange pwrOffSeq = true := ⟨rfl, rfl⟩
  simp [updateSeq, hdual, hend]

theorem shadowsInRange_eraseSeq (P : Params) : shadowsInRange (eraseSeq P) = true := by
  have hdual := shadowsInRange_dualStream P eraseBytes (gap := []) rfl (windowFits_entryWindow 1)
  have hend : shadowsInRange updFullSeq = true ∧ shadowsInRange pwrOffSeq = true := ⟨rfl, rfl⟩
  simp only [eraseSeq, shadowsInRange_append, shadowsInRange_initFullSeq, hend, Bool.true_and, Bool.and_true]
  exact hdual

/-- R186: a clipped rectangle lies in the panel. -/
theorem windowFits_window_of_clipped {x y w h : Nat} {r : Rect} (hr : Spec.Clipped x y w h r) :
    windowFits r.window = true := by
  obtain ⟨hxeb, hys, hye⟩ := bounds_of_clipped hr
  have hxsb : r.xsb < 16 := by
    obtain ⟨⟨-, -, hx, -⟩, h, -⟩ := hr
    omega
  simp only [windowFits, Rect.window, BitVec.toNat_ofNat, decide_eq_true_eq]
  omega

theorem shadowsInRange_updwinSeq (P : Params) (fb : List Host.Cell) (x y w h : U16) :
    shadowsInRange (updwinSeq P fb x y w h) = true := by
  unfold updwinSeq
  split
  · rfl
  · rename_i r hr
    have hw := windowFits_window_of_clipped ((clip_eq_some_iff ..).1 hr)
    have hdual := shadowsInRange_dualStream P (rectBytes P fb r) (gap := [.dly .streamSettle]) rfl hw
    have hend : shadowsInRange updPartSeq = true := rfl
    simp [updwinRectSeq, hw, hdual, hend]

/-- R29: whatever the latches hold, the micro-program's shadow writes are in range. -/
theorem shadowsInRange_expand (P : Params) (s : State) : shadowsInRange (expand P s) = true := by
  unfold expand
  split
  case h_6 => exact shadowsInRange_initDispSeq P _
  case h_7 => exact shadowsInRange_setEmSeq _
  case h_8 => exact shadowsInRange_initFullSeq P _
  case h_9 => exact shadowsInRange_initPartSeq P _
  case h_15 => exact shadowsInRange_updateSeq P _
  case h_16 => exact shadowsInRange_updwinSeq P _ _ _ _ _
  case h_17 => exact shadowsInRange_eraseSeq P
  all_goals rfl

/-- R29: the ranges of LUTSEL and of the shadow window. -/
def RangesKept (h : Shadows) : Prop := h.lutsel ≠ 3 ∧ windowFits h.win = true

theorem rangesKept_shadowsAfter {u : Uop} {h : Shadows} (hu : shadowInRange u = true) (hh : RangesKept h) :
    RangesKept (u.shadowsAfter h) := by
  obtain ⟨hlut, hwin⟩ := hh
  cases u with
  | rst v => cases v with
    | true => exact ⟨hlut, hwin⟩
    | false => exact ⟨show (0 : BitVec 2) ≠ 3 by decide, hwin⟩
  | sh a => cases a with
    | entryMode e => exact ⟨hlut, hwin⟩
    | window w => exact ⟨hlut, hu⟩
    | lutsel v => exact ⟨bne_iff_ne.1 hu, hwin⟩
    | pwr v => exact ⟨hlut, hwin⟩
  | dly _ | wait | cmd _ | dat _ | burst _ => exact ⟨hlut, hwin⟩

theorem rangesKept_iff (s : State) : RangesKept s.shadows ↔ s.lutsel ≠ 3 ∧ WindowInPanel s := by
  rw [RangesKept, windowFits, decide_eq_true_iff]
  rfl

/-! ### The RST pin along the micro-programs -/

/-- R131: of the operations but RESET and INIT no µop is one at which RST is low. -/
theorem resetPinLow_of_opc {opc : Byte} (h1 : opc ≠ 0x81) (h2 : opc ≠ 0xA0) (n : U16) :
    resetPinLow opc n = false := by
  rw [resetPinLow, beq_false_of_ne h1, beq_false_of_ne h2]
  rfl

/-- R131, R180: the µop at UPC takes the RST pin from its level before that µop to its level after it. -/
theorem rstAfter_currentUop {P : Params} {s : State} {u : Uop} (hc : currentUop P s = some u) :
    rstAfter [u] (!resetPinLow s.opc s.upc) = !resetPinLow s.opc (s.upc + 1) := by
  by_cases h1 : s.opc = 0x81
  · have hlt : s.upc.toNat < 5 := by simpa [expand, h1, resetSeq] using upc_lt_of_currentUop hc
    have hupc : s.upc = 0 ∨ s.upc = 1 ∨ s.upc = 2 ∨ s.upc = 3 ∨ s.upc = 4 := by bv_omega
    rcases hupc with hn | hn | hn | hn | hn
    all_goals
      simp only [currentUop, expand, h1, hn] at hc
      cases hc
      simp [rstAfter, resetPinLow, h1, hn]
  by_cases h2 : s.opc = 0xA0
  · have hlt : s.upc.toNat < 7 := by simpa [expand, h2, initSeq, resetSeq] using upc_lt_of_currentUop hc
    have hupc : s.upc = 0 ∨ s.upc = 1 ∨ s.upc = 2 ∨ s.upc = 3 ∨ s.upc = 4 ∨ s.upc = 5 ∨ s.upc = 6 := by bv_omega
    rcases hupc with hn | hn | hn | hn | hn | hn | hn
    all_goals
      simp only [currentUop, expand, h2, hn] at hc
      cases hc
      simp [rstAfter, resetPinLow, h2, hn]
  · have hquiet : ∀ v, Uop.rst v ∉ [u] := fun v hv => by
      obtain rfl := List.mem_singleton.1 hv
      exact expand_quiet P s (fun h => h1 (BitVec.eq_of_toNat_eq h)) (fun h => h2 (BitVec.eq_of_toNat_eq h)) v
        (List.mem_of_getElem? hc)
    rw [resetPinLow_of_opc h1 h2, resetPinLow_of_opc h1 h2]
    exact foldl_rst_quiet hquiet true

/-! ### The idle block -/

/-- R24, R26: what the invariant asks of the idle block. -/
theorem inv_of_idle {s : State} (fb : Memory.wf s.fb) (link : LinkIdle s.pins)
    (cause : s.cause = if s.fault then 1 else 0) (record : s.fault = false → s.fop = 0 ∧ s.fupc = 0)
    (ha : s.active = false) (idle : s.upc = 0 ∧ s.pins.rst = true) (bidx : s.bidx = 0)
    (lutsel : s.lutsel ≠ 3) (window : WindowInPanel s) : Inv s where
  fb := fb
  link := link
  cause := cause
  record := record
  exclusive := fun _ => ha
  idle := fun _ => idle
  running := fun h => absurd (h.symm.trans ha) (by decide)
  resetPin := fun h => absurd (h.symm.trans ha) (by decide)
  bidx := bidx
  lutsel := lutsel
  window := window

theorem inv_reset : Inv State.reset :=
  inv_of_idle nil_wf ⟨rfl, rfl, rfl⟩ rfl (fun _ => ⟨rfl, rfl⟩) rfl ⟨rfl, rfl⟩ rfl (by decide)
    (by simp [WindowInPanel, State.reset])

/-- Settles O3: the reset state is idle, with every field the invariant names at its reset value. -/
theorem resetMeetsTheInvariant : Obligations.ResetMeetsTheInvariant := inv_reset

/-- R320: block reset differs from the reset state in the environment alone, which the invariant does not name. -/
theorem inv_blockReset (s : State) : Inv (blockReset s) :=
  inv_of_idle nil_wf ⟨rfl, rfl, rfl⟩ rfl (fun _ => ⟨rfl, rfl⟩) rfl ⟨rfl, rfl⟩ rfl inv_reset.lutsel inv_reset.window

/-- R45: the requests still to come have no part in the invariant. -/
theorem inv_inbox {s : State} (h : Inv s) (r : List HostInput) : Inv { s with inbox := r } where
  __ := h

/-! ### A step of a running operation -/

/-- R121: the end of a micro-program that ran to its end, where RST is high again. -/
theorem inv_finishProgram {s : State} (h : Inv s) (ha : s.active = true) (hc : currentUop Config.params s = none) :
    Inv (finishProgram s) := by
  have hlow : resetPinLow s.opc s.upc = false := by
    rw [← Bool.not_eq_true]
    intro hlow
    rcases currentUop_of_resetPinLow Config.params hlow with hu | hu <;> simp [hc] at hu
  have hrst : s.pins.rst = true := by rw [h.resetPin ha, hlow]; rfl
  exact inv_of_idle h.fb h.link h.cause h.record rfl ⟨rfl, hrst⟩ h.bidx h.lutsel h.window

/-- R120, R121: the current µop completed. -/
theorem inv_of_progress {s t : State} {u : Uop} (h : Inv s) (ha : s.active = true)
    (hc : currentUop Config.params s = some u) (hp : Progress Config.params [u] s t) : Inv t := by
  have hfault : s.fault = false := by
    rw [← Bool.not_eq_true]
    exact fun hf => absurd (ha.symm.trans (h.exclusive hf)) (by decide)
  obtain ⟨hfault', hcause, hfop, hfupc⟩ : t.fault = s.fault ∧ t.cause = s.cause ∧ t.fop = s.fop ∧ t.fupc = s.fupc := by
    simpa [State.record] using hp.record
  have hactive : t.active = true := hp.active.trans ha
  have hopc : t.opc = s.opc := congrArg Latches.opc hp.latches
  have hranges : RangesKept t.shadows := by
    have hu : shadowInRange u = true := List.all_eq_true.1 (shadowsInRange_expand _ s) u (List.mem_of_getElem? hc)
    rw [hp.shadows]
    exact rangesKept_shadowsAfter hu ((rangesKept_iff s).2 ⟨h.lutsel, h.window⟩)
  exact
    { fb := by rw [hp.fb]; exact h.fb
      link := hp.link h.link
      cause := by rw [hcause, hfault']; exact h.cause
      record := fun _ => by rw [hfop, hfupc]; exact h.record hfault
      exclusive := fun hf => absurd (hf.symm.trans (hfault'.trans hfault)) (by decide)
      idle := fun hi => absurd (hi.symm.trans hactive) (by decide)
      running := fun _ => by
        rw [expand_of_progress hp, upc_toNat_of_progress hc hp]
        exact upc_lt_of_currentUop hc
      resetPin := fun _ => by
        rw [hp.rst, h.resetPin ha, hopc, rstAfter_currentUop hc, hp.upc]
        rfl
      bidx := hp.bidx h.bidx
      lutsel := ((rangesKept_iff t).1 hranges).1
      window := ((rangesKept_iff t).1 hranges).2 }

/-- R296: the current µop raised, with RST high, as at every µop that waits. -/
theorem inv_of_raised {s t : State} {u : Uop} (h : Inv s) (ha : s.active = true)
    (hc : currentUop Config.params s = some u) (hr : Raised Config.params u s t) : Inv t := by
  have hrst : s.pins.rst = true := by rw [h.resetPin ha, resetPinLow_of_waits hc hr.waits]; rfl
  obtain ⟨log, rfl⟩ := hr.entry
  exact inv_of_idle h.fb ⟨rfl, rfl, rfl⟩ rfl (fun hf => Bool.noConfusion hf) rfl ⟨rfl, hrst⟩ rfl h.lutsel h.window

theorem inv_performOne {s : State} {u : Uop} (h : Inv s) (ha : s.active = true)
    (hc : currentUop Config.params s = some u) : Inv (performOne Config.params u s) :=
  (performOne_cases Config.params u s).elim (inv_of_progress h ha hc) (inv_of_raised h ha hc)

theorem inv_runsOn {s t : State} {r : List HostInput} (h : Inv s) (ha : s.active = true)
    (hr : RunsOn s { s with inbox := r } t) : Inv t := by
  have hu := inv_inbox h r
  rcases hr with ⟨hc, rfl⟩ | ⟨o, hc, rfl⟩
  · exact inv_finishProgram hu ha hc
  · exact inv_performOne hu ha hc

/-- R121: a micro-program run from the µop at UPC to its end, µop after µop. -/
theorem inv_runProgram {us : List Uop} {s : State} (h : Inv s) (ha : s.active = true)
    (hd : (expand Config.params s).drop s.upc.toNat = us) : Inv (runProgram Config.params us s) := by
  induction us generalizing s with
  | nil => exact inv_finishProgram h ha (currentUop_of_drop_nil hd)
  | cons u us ih =>
    have hc := currentUop_of_drop hd
    rw [runProgram]
    rcases perform_cases Config.params u s with ⟨t, ht, hp⟩ | ⟨t, ht, hr⟩ <;> rw [ht]
    · exact ih (inv_of_progress h ha hc hp) (hp.active.trans ha) (drop_of_progress hd hp)
    · exact inv_of_raised h ha hc hr

/-! ### A request -/

theorem inv_rejectIllegal {s : State} (h : Inv s) : Inv (rejectIllegal s) where
  __ := h

/-- R22: on the idle block the latches have no part in the invariant. -/
theorem inv_latch {s : State} (i : Instr) (h : Inv s) (ha : s.active = false) : Inv (latch i s) := by
  rw [latch_eq]
  exact inv_of_idle h.fb h.link h.cause h.record ha (h.idle ha) h.bidx h.lutsel h.window

theorem inv_refuseLink {s : State} (h : Inv s) : Inv (refuseLink s) where
  __ := h

/-- R121: a micro-program starts at µop 0, with RST high. -/
theorem inv_startProgram {s : State} (h : Inv s) (ha : s.active = false) (hf : s.fault = false) :
    Inv (startProgram s) where
  fb := h.fb
  link := h.link
  cause := h.cause
  record := h.record
  exclusive := fun h => absurd (h.symm.trans hf) (by decide)
  idle := fun h => Bool.noConfusion h
  running := fun _ => Nat.zero_le _
  resetPin := fun _ => by
    have hlow : resetPinLow s.opc 0 = false := Bool.and_false _
    exact (h.idle ha).2.trans (congrArg (!·) hlow).symm
  bidx := h.bidx
  lutsel := h.lutsel
  window := h.window

/-- R92: acceptance keeps the invariant where the operation's own rule does. -/
theorem inv_accept {i : Instr} {body : State → State} {s : State} (h : Inv s)
    (hb : s.active = false → (isLink i = true → s.fault = false) → Inv (latch i s) → Inv (body (latch i s))) :
    Inv (accept i body s) := by
  rcases accept_cases i body s with ⟨-, he⟩ | ⟨-, -, he⟩ | ⟨ha, -, -, -, he⟩ | ⟨ha, -, hf, he⟩ <;> rw [he]
  · exact h
  · exact inv_rejectIllegal h
  · exact inv_refuseLink (inv_latch i h ha)
  · exact hb ha hf (inv_latch i h ha)

theorem inv_accept_startProgram {i : Instr} {s : State} (hl : isLink i = true) (h : Inv s) :
    Inv (accept i startProgram s) :=
  inv_accept h fun ha hf hi => inv_startProgram hi (by simpa using ha) (by simpa using hf hl)

theorem inv_link {i : Instr} {s : State} (hl : isLink i = true) (h : Inv s) :
    Inv (execUnder Config.params i s) := by
  rw [execUnder_link _ hl, linkOp]
  refine inv_accept h fun ha hf hi => inv_runProgram ?_ rfl ?_
  · exact inv_startProgram hi (by simpa using ha) (by simpa using hf hl)
  · rw [expand_congr Config.params (s := latch i s) (t := startProgram (latch i s)) rfl rfl]
    rfl

/-- R72, R220: a framebuffer operation keeps the canonical form, and CLRF clears the whole record. -/
theorem inv_local {i : Instr} {s : State} (hl : isLink i = false) (hp : isPanel i = false) (h : Inv s) :
    Inv (execUnder Config.params i s) := by
  rcases local_cases Config.params hl hp s with ⟨-, he⟩ | ⟨-, -, he⟩ | ⟨ha, -, -, he, -, -, -, hfb⟩ | ⟨ha, -, he⟩
  · rw [he]; exact h
  · rw [he]; exact inv_rejectIllegal h
  · have hi := inv_latch i h ha
    have hidle : (latch i s).active = false := by simpa using ha
    rw [he]
    exact inv_of_idle (hfb h.fb) hi.link hi.cause hi.record hidle (hi.idle hidle) hi.bidx hi.lutsel hi.window
  · have hi := inv_latch i h ha
    have hidle : (latch i s).active = false := by simpa using ha
    rw [he]
    exact inv_of_idle hi.fb hi.link rfl (fun _ => ⟨rfl, rfl⟩) hidle (hi.idle hidle) hi.bidx hi.lutsel hi.window

theorem inv_takes {bs : List Byte} {u t : State} (h : Inv u) (ht : Takes bs u t) : Inv t := by
  rcases ht with ⟨-, rfl⟩ | ⟨i, hd, rfl | ⟨hl, rfl⟩⟩
  · exact inv_rejectIllegal h
  · cases hl : isLink i with
    | true => exact inv_link hl h
    | false => exact inv_local hl (decodePacket_some hd).1 h
  · exact inv_accept_startProgram hl h

/-- Settles O4: each kind of step keeps the invariant; a run of a whole micro-program is µop after µop. -/
theorem stepKeepsTheInvariant : Obligations.StepKeepsTheInvariant := by
  intro s t h hs
  rcases step_cases hs with ⟨r, -, rfl⟩ | ⟨ha, r, -, hrun⟩ | ⟨-, -, rfl⟩ | ⟨-, r, -, rfl⟩ | ⟨-, bs, r, -, htake⟩
  · exact inv_blockReset _
  · exact inv_runsOn h ha hrun
  · exact h
  · exact inv_inbox h r
  · exact inv_takes (inv_inbox h r) htake

end Sys2Proof.Proofs
end

section
/-! PROOFS. The two encodings (R90 to R96): the decoder and the encoder are inverse to each other. -/

namespace Sys2Proof.Proofs

open Sys2Proof.Machine

/-! ### Panel commands -/

/-- R93, R96: of the opcodes the panel decoder answers those of panel commands, each with its own. -/
theorem decodePanel_opcodeOf (i : Instr) : decodePanel (opcodeOf i) = if isPanel i then some i else none := by
  cases i <;> rfl

/-- R95: a panel command is one Byte. -/
theorem encode_of_isPanel {i : Instr} (h : isPanel i = true) : encode i = [opcodeOf i] := by
  cases i <;> first | rfl | cases h

/-- R102: a panel command has no operand that could be illegal. -/
theorem wellFormed_of_isPanel {i : Instr} (h : isPanel i = true) : i.wellFormed = true := by
  cases i <;> first | rfl | cases h

theorem decodePanel_eq_lookup (b : Byte) : decodePanel b = Spec.panelTable.lookup b := by
  revert b; decide +kernel

theorem panelTable_encoded : ∀ e ∈ Spec.panelTable, encode e.2 = [e.1] ∧ decode [e.1] = some e.2 := by
  decide

/-- Settles O14: the decoder against the table, Byte by Byte, and the table against the encoder, row by row. -/
theorem panelBytesDecodeAsTabled : Obligations.PanelBytesDecodeAsTabled :=
  ⟨decodePanel_eq_lookup, fun b i h => panelTable_encoded (b, i) h⟩

/-! ### Decoding what was encoded -/

/-- R93: a Byte list that does not begin with a panel opcode is a packet. -/
theorem decode_eq_decodePacket {op : Byte} (h : decodePanel op = none) (body : List Byte) :
    decode (op :: body) = decodePacket (op :: body) := by
  cases body with
  | nil => rw [decode, h, Option.none_or]
  | cons b bs => rfl

/-- R91: the operand fields of each format are read back, the 16-bit ones from their two Bytes. -/
theorem decodeOperation_encoded {i : Instr} (hp : isPanel i = false) (hw : i.wellFormed = true) :
    decodeOperation (opcodeOf i) (operandBytes i) = some i := by
  cases i with
  | wdatn n ds =>
    have hn : ds.length = n.toNat := by simpa [Instr.wellFormed] using hw
    change operandsHN .wdatn (lo n :: hi n :: ds) = _
    rw [operandsHN, joinBytes_lo_hi, if_pos hn]
  | updwin x y w h =>
    change some (Instr.updwin (joinBytes (lo x) (hi x)) (joinBytes (lo y) (hi y)) (joinBytes (lo w) (hi w))
      (joinBytes (lo h) (hi h))) = _
    simp only [joinBytes_lo_hi]
  | pixel x y c =>
    change some (Instr.pixel (joinBytes (lo x) (hi x)) (joinBytes (lo y) (hi y)) c) = _
    simp only [joinBytes_lo_hi]
  | getpix x y =>
    change some (Instr.getpix (joinBytes (lo x) (hi x)) (joinBytes (lo y) (hi y))) = _
    simp only [joinBytes_lo_hi]
  | reset | wcmd | wdat | waitb | initdisp | setem | initfull | initpart | updfull | updpart | pwron | pwroff | init
  | update | erase | fill | setrot | clrf => rfl
  | _ => cases hp

theorem decodePacket_encode {i : Instr} (hp : isPanel i = false) (hw : i.wellFormed = true) :
    decodePacket (encode i) = some i := by
  rw [encode, decodePacket_cons, decodeOperation_encoded hp hw, Option.filter_some_pos hw]

/-- Settles O11: a panel command is its one Byte; a host operation's packet begins with no panel opcode, and its
fields are read back. -/
theorem decodeOfEncode : Obligations.DecodeOfEncode := by
  intro i hw
  have hpanel := decodePanel_opcodeOf i
  cases hp : isPanel i with
  | true =>
    rw [hp, if_pos rfl] at hpanel
    rw [encode_of_isPanel hp, decode, hpanel, Option.some_or]
  | false =>
    rw [hp, if_neg Bool.false_ne_true] at hpanel
    rw [encode, decode_eq_decodePacket hpanel]
    exact decodePacket_encode hp hw

/-! ### Encoding what was decoded -/

/-- R90, R91: `i` is the operation of the packet with opcode `op` and operand Bytes `body`. -/
def Reads (op : Byte) (body : List Byte) (i : Instr) : Prop := opcodeOf i = op ∧ operandBytes i = body

/-- R91: two Bytes are the encoding of the 16-bit value they are read as. -/
theorem word16_joinBytes (l h : Byte) : word16 (joinBytes l h) = [l, h] := by
  rw [word16, lo_joinBytes, hi_joinBytes]

section
variable {op : Byte} {body : List Byte} {i : Instr}

theorem reads_of_operandsH0 {j : Instr} (h : operandsH0 j body = some i) (hop : opcodeOf j = op)
    (hb : operandBytes j = []) : Reads op body i := by
  unfold operandsH0 at h
  split at h
  · cases h; exact ⟨hop, hb⟩
  · cases h

theorem reads_of_operandsH1 {k : Byte → Instr} (h : operandsH1 k body = some i) (hop : ∀ b, opcodeOf (k b) = op)
    (hb : ∀ b, operandBytes (k b) = [b]) : Reads op body i := by
  unfold operandsH1 at h
  split at h
  · cases h; exact ⟨hop _, hb _⟩
  · cases h

theorem reads_of_operandsHN (h : operandsHN .wdatn body = some i) (hop : 0x84 = op) : Reads op body i := by
  unfold operandsHN at h
  split at h
  · obtain ⟨-, h⟩ := Option.ite_none_right_eq_some.1 h
    cases h
    exact ⟨hop, by rw [operandBytes, word16_joinBytes]; rfl⟩
  · cases h

theorem reads_of_operandsH2W (h : operandsH2W .getpix body = some i) (hop : 0xB2 = op) : Reads op body i := by
  unfold operandsH2W at h
  split at h
  · cases h
    exact ⟨hop, by simp only [operandBytes, word16_joinBytes]; rfl⟩
  · cases h

theorem reads_of_operandsH2W1 (h : operandsH2W1 .pixel body = some i) (hop : 0xB1 = op) : Reads op body i := by
  unfold operandsH2W1 at h
  split at h
  · cases h
    exact ⟨hop, by simp only [operandBytes, word16_joinBytes]; rfl⟩
  · cases h

theorem reads_of_operandsH4W (h : operandsH4W .updwin body = some i) (hop : 0xA2 = op) : Reads op body i := by
  unfold operandsH4W at h
  split at h
  · cases h
    exact ⟨hop, by simp only [operandBytes, word16_joinBytes]; rfl⟩
  · cases h

end

theorem ofNat_of_toNat {b : Byte} {n : Nat} (h : b.toNat = n) : BitVec.ofNat 8 n = b := by
  rw [← h, BitVec.ofNat_toNat, BitVec.setWidth_eq]

/-- R91, R93: what the table reads of a packet is written back as that packet. -/
theorem reads_of_decodeOperation {op : Byte} {body : List Byte} {i : Instr}
    (h : decodeOperation op body = some i) : Reads op body i := by
  unfold decodeOperation at h
  split at h
  case h_23 => cases h
  all_goals
    rename_i hop
    replace hop := ofNat_of_toNat hop
  case h_4 => exact reads_of_operandsHN h hop
  case h_16 => exact reads_of_operandsH4W h hop
  case h_19 => exact reads_of_operandsH2W1 h hop
  case h_20 => exact reads_of_operandsH2W h hop
  case h_2 | h_3 | h_6 | h_7 | h_8 | h_9 | h_18 | h_21 =>
    exact reads_of_operandsH1 h (fun _ => hop) fun _ => rfl
  all_goals exact reads_of_operandsH0 h hop rfl

theorem encode_of_decodePacket {bs : List Byte} {i : Instr} (h : decodePacket bs = some i) :
    encode i = bs ∧ i.wellFormed = true := by
  cases bs with
  | nil => cases h
  | cons op body =>
    obtain ⟨hd, hw⟩ := Option.filter_eq_some_iff.1 (decodePacket_cons op body ▸ h)
    obtain ⟨hop, hbody⟩ := reads_of_decodeOperation hd
    exact ⟨by rw [encode, hop, hbody], hw⟩

/-- R93: a decoded list is the one Byte of a panel command, or a packet. -/
theorem decode_cases {bs : List Byte} {i : Instr} (h : decode bs = some i) :
    (isPanel i = true ∧ bs = [opcodeOf i] ∧ decodePanel (opcodeOf i) = some i) ∨
      (isPanel i = false ∧ decodePacket bs = some i) := by
  have packet (h : decodePacket bs = some i) : isPanel i = false ∧ decodePacket bs = some i :=
    ⟨(decodePacket_some h).1, h⟩
  unfold decode at h
  split at h
  · rcases Option.or_eq_some_iff.1 h with h | ⟨-, h⟩
    · obtain ⟨hp, rfl⟩ := decodePanel_some h
      exact .inl ⟨hp, rfl, h⟩
    · exact .inr (packet h)
  · exact .inr (packet h)

/-- Settles O12: each format's fields are written back as the Bytes they were read from. -/
theorem encodeOfDecode : Obligations.EncodeOfDecode := by
  intro bs i h
  rcases decode_cases h with ⟨hp, rfl, -⟩ | ⟨-, h⟩
  · exact ⟨encode_of_isPanel hp, wellFormed_of_isPanel hp⟩
  · exact encode_of_decodePacket h

/-- Settles O15: each packet by the table, with the count and the colours legal. -/
theorem examplePacketsDecode : Obligations.ExamplePacketsDecode :=
  ⟨rfl, rfl, rfl, rfl, rfl, rfl, rfl⟩

end Sys2Proof.Proofs
end

section
/-! PROOFS. One step and runs of steps (R24, R45, R121, R321): the idle block waits, a step runs what the decoder reads
or the current µop, the host is held off, and a run µop by µop meets the run in one step. -/

namespace Sys2Proof.Proofs

open Sys2Proof.Machine

/-! ### The idle block with nothing to do -/

theorem run_succ {s t : State} (h : step s = .next t) (n : Nat) :
    Sys2Proof.core.run (n + 1) s = Sys2Proof.core.run n t := by
  have h' : Sys2Proof.core.step s = .next t := h
  simp only [Host.Core.run, h']

theorem run_one {s t : State} (h : step s = .next t) : Sys2Proof.core.run 1 s = .next t := run_succ h 0

theorem step_of_empty_inbox {s : State} (ha : s.active = false) (hi : s.inbox = []) : step s = .next s := by
  simp [step, hi, ha]

theorem step_of_nothing {s : State} {r : List HostInput} (ha : s.active = false) (hi : s.inbox = .nothing :: r) :
    step s = .next { s with inbox := r } := by
  simp [step, hi, ha]

theorem run_of_empty_inbox {s : State} (ha : s.active = false) (hi : s.inbox = []) (n : Nat) :
    Sys2Proof.core.run n s = .next s := by
  induction n with
  | zero => rfl
  | succ n ih => rw [run_succ (step_of_empty_inbox ha hi), ih]

/-- R321: of the inputs to come only the `nothing`s are used up, one a step. -/
theorem run_of_nothings {s : State} {n m : Nat} {r : List HostInput} (ha : s.active = false) (hn : n ≤ m)
    (hi : s.inbox = List.replicate m .nothing ++ r) :
    Sys2Proof.core.run n s = .next { s with inbox := List.replicate (m - n) .nothing ++ r } := by
  induction n generalizing s m with
  | zero => rw [Nat.sub_zero, ← hi]; rfl
  | succ n ih =>
    obtain ⟨m, rfl⟩ := Nat.exists_eq_add_of_le' (Nat.le_trans (Nat.le_add_left 1 n) hn)
    rw [List.replicate_succ, List.cons_append] at hi
    have hrun := ih (s := { s with inbox := List.replicate m .nothing ++ r }) ha (Nat.le_of_succ_le_succ hn) rfl
    rw [run_succ (step_of_nothing ha hi), hrun, Nat.add_sub_add_right]

/-- R321: once the `nothing`s are used up, with no request behind them, the block stays. -/
theorem run_of_only_nothings {s : State} (n m : Nat) (ha : s.active = false)
    (hi : s.inbox = List.replicate m .nothing) :
    Sys2Proof.core.run n s = .next { s with inbox := List.replicate (m - n) .nothing } := by
  induction n generalizing s m with
  | zero => rw [Nat.sub_zero, ← hi]; rfl
  | succ n ih =>
    cases m with
    | zero =>
      rw [run_of_empty_inbox ha hi, Nat.zero_sub, ← hi]
    | succ m =>
      rw [run_succ (step_of_nothing ha hi), ih (s := { s with inbox := List.replicate m .nothing }) m ha rfl,
        Nat.add_sub_add_right]

/-- Settles O2: a `nothing` leaves the idle block as it is, an empty inbox keeps it there, and a block reset makes the
block idle from any state. -/
theorem idleBlockWaitsForTheHost : Obligations.IdleBlockWaitsForTheHost := by
  refine ⟨fun s ha => ⟨step_of_empty_inbox ha, fun r => step_of_nothing ha⟩,
    fun n m s ha hi => run_of_only_nothings n m ha hi, fun n m s r hn hi => ?_⟩
  rw [run_succ (step_of_blockReset_input hi)]
  exact run_of_nothings rfl hn rfl

/-! ### The decoded instruction -/

theorem step_of_decodePacket {s : State} {bs : List Byte} {r : List HostInput} {i : Instr} (ha : s.active = false)
    (hi : s.inbox = .packet bs :: r) (hd : decodePacket bs = some i) : step s = exec i { s with inbox := r } := by
  rw [step_packet ha hi, stepPacket_legal hd]

/-- A packet is placed at the host interface: no packet is the Byte of a panel command (R93). -/
theorem placeBytes_of_decodePacket {bs : List Byte} {i : Instr} (hd : decodePacket bs = some i) (s : State) :
    placeBytes bs s = placePacket bs s := by
  obtain ⟨henc, -⟩ := encode_of_decodePacket hd
  have hpanel := decodePanel_opcodeOf i
  rw [(decodePacket_some hd).1] at hpanel
  subst henc
  unfold placeBytes
  split
  · rename_i b hb
    obtain rfl : opcodeOf i = b := by simpa [encode] using congrArg (List.headD · 0) hb
    rw [hpanel, hb]
    rfl
  · rfl

theorem step_placePacket {bs : List Byte} {i : Instr} (hd : decodePacket bs = some i) (s : State) :
    step (placePacket bs s) = exec i { s with active := false } :=
  step_of_decodePacket (s := placePacket bs s) rfl rfl hd

/-- R95, R132: the one µop of WCMD of a listed Byte is that panel command. -/
theorem step_placePanelCommand {b : Byte} {i : Instr} (hd : decodePanel b = some i) (s : State) :
    step (placePanelCommand b s) = exec i { s with active := true, opc := 0x82, a0 := b.zeroExtend 16, upc := 0 } := by
  have hcur : currentUop Config.params { placePanelCommand b s with inbox := s.inbox } = some (.cmd b) := by
    change some (Uop.cmd (lo (byteOperand b))) = _
    rw [lo_byteOperand]
  change stepRunning { placePanelCommand b s with inbox := s.inbox } = _
  simp only [stepRunning, hcur, Uop.panel, hd]
  rfl

/-- Settles O17: a packet is decoded where it is presented, and a table word is placed where its decoder reads it. -/
theorem stepRunsTheDecodedInstruction : Obligations.StepRunsTheDecodedInstruction := by
  refine ⟨fun s bs r i ha hi hd => step_of_decodePacket ha hi hd, fun s nbits w i hd => ?_⟩
  rcases decode_cases hd with ⟨hp, hbs, hdec⟩ | ⟨hp, hdec⟩
  · refine ⟨fun h => absurd (h.symm.trans hp) Bool.false_ne_true, fun _ => ?_⟩
    have hplace : s.withFetchWord nbits w = placePanelCommand (opcodeOf i) s := by
      rw [State.withFetchWord, hbs, placeBytes, hdec]
      rfl
    rw [hplace, step_placePanelCommand hdec]
  · refine ⟨fun _ => ?_, fun h => absurd (hp.symm.trans h) Bool.false_ne_true⟩
    rw [State.withFetchWord, placeBytes_of_decodePacket hdec, step_placePacket hdec]

/-! ### The current µop -/

/-- R45: what a running operation's step leaves of the requests: a `nothing` that comes next is used up. -/
def heldInbox (l : List HostInput) : List HostInput := if l.head? = some .nothing then l.tail else l

theorem step_of_active {s : State} (ha : s.active = true) (hr : ¬ Spec.resetting s) :
    step s = stepRunning { s with inbox := heldInbox s.inbox } := by
  unfold step
  split
  case h_1 hi => exact absurd ⟨_, hi⟩ hr
  case h_2 hi _ => rw [hi]; rfl
  case h_3 hi _ | h_4 hi _ | h_5 hi _ =>
    have hheld : heldInbox s.inbox = s.inbox := by rw [hi]; rfl
    rw [hheld]
  all_goals
    rename_i hi hidle
    exact absurd (ha.symm.trans hidle) (by decide)

/-- Settles O18: a running operation's step is `stepRunning`, case by case of its µop. -/
theorem stepPerformsTheCurrentMicroOperation : Obligations.StepPerformsTheCurrentMicroOperation := by
  intro s ha hr u
  have hstep : step s = stepRunning u := step_of_active ha hr
  have hrun := stepRunning_eq (s := u) ha
  have hcur : currentUop Config.params u = currentUop Config.params s := rfl
  rw [hcur] at hrun
  rw [hstep, hrun]
  refine ⟨fun b i hc hd => ?_, fun b hc _ => ?_, fun o hc _ => ?_, fun hc => ?_⟩
  · rw [hc]; exact (exec_panel (s := u) hd ha).symm
  · rw [hc]
  · rw [hc]
  · rw [hc]; rfl

/-- R121: everything a step of a running operation can do. -/
theorem runsOn_of_active {s t : State} (ha : s.active = true) (hr : ¬ Spec.resetting s) (h : step s = .next t) :
    RunsOn s { s with inbox := heldInbox s.inbox } t := by
  rw [step_of_active ha hr, stepRunning_eq (s := { s with inbox := heldInbox s.inbox }) ha, currentUop_inbox] at h
  injection h with h
  cases hc : currentUop Config.params s with
  | none => rw [hc] at h; exact .inl ⟨hc, h.symm⟩
  | some o => rw [hc] at h; exact .inr ⟨o, hc, h.symm⟩

/-- Settles O7: a µop that completed moves UPC by one, one that raised ends the operation, and neither touches what the
micro-program is made of. -/
theorem upcAdvancesByOneInAFixedMicroProgram : Obligations.UpcAdvancesByOneInAFixedMicroProgram := by
  intro s t ha hr h
  rcases runsOn_of_active ha hr h with ⟨hc, rfl⟩ | ⟨o, hc, rfl⟩
  · exact ⟨rfl, .inr ⟨rfl, rfl, .inl hc⟩⟩
  · rcases performOne_cases Config.params o { s with inbox := heldInbox s.inbox } with hp | hR
    · exact ⟨(expand_of_progress hp :), .inl ⟨hp.active.trans ha, hp.upc, by rw [hc]; rfl⟩⟩
    · refine ⟨(expand_of_raised hR :), .inr ?_⟩
      obtain ⟨log, he⟩ := hR.entry
      rw [he]
      exact ⟨rfl, rfl, .inr rfl⟩

/-! ### The host held off -/

theorem inbox_of_raised {P : Params} {u : Uop} {s t : State} (h : Raised P u s t) : t.inbox = s.inbox := by
  obtain ⟨log, rfl⟩ := h.entry
  rfl

theorem inbox_of_runsOn {s u t : State} (h : RunsOn s u t) : t.inbox = u.inbox := by
  rcases h with ⟨-, rfl⟩ | ⟨o, -, rfl⟩
  · rfl
  · exact (performOne_cases Config.params o u).elim Progress.inbox inbox_of_raised

theorem heldInbox_cases (l : List HostInput) : heldInbox l = l ∨ l = .nothing :: heldInbox l := by
  unfold heldInbox
  split
  · rename_i h; exact .inr (List.eq_cons_of_mem_head? h)
  · exact .inl rfl

/-- R45: a host operation is not accepted while another runs. -/
theorem exec_of_active {i : Instr} {s : State} (hp : isPanel i = false) (ha : s.active = true) :
    exec i s = .next s := by
  have hidle : s.active ≠ false := by rw [ha]; decide
  rw [exec_eq]
  congr 1
  cases hl : isLink i with
  | true =>
    rcases execUnder_link_cases (s := s) hl with ⟨-, he⟩ | ⟨h, -⟩ | ⟨h, -⟩ | ⟨h, -⟩
    · exact he
    all_goals exact absurd h hidle
  | false =>
    rcases local_cases Config.params hl hp s with ⟨-, he⟩ | ⟨h, -⟩ | ⟨h, -⟩ | ⟨h, -⟩
    · exact he
    all_goals exact absurd h hidle

/-- Settles O8: the µop performed leaves the requests, and acceptance refuses all while ACTIVE is 1. -/
theorem hostIsHeldOffWhileActive : Obligations.HostIsHeldOffWhileActive := by
  refine ⟨fun s t ha hr h => ?_, fun i s hp ha => exec_of_active hp ha⟩
  rw [inbox_of_runsOn (runsOn_of_active ha hr h)]
  exact heldInbox_cases s.inbox

/-! ### A run µop by µop -/

/-- R45: the requests a running operation leaves where they are. -/
def requestsWait (l : List HostInput) : Prop :=
  l = [] ∨ ∃ cs q, l = .packet cs :: q ∨ l = .packetStepwise cs :: q

theorem heldInbox_of_requestsWait {l : List HostInput} (h : requestsWait l) : heldInbox l = l := by
  rcases h with rfl | ⟨cs, q, rfl | rfl⟩ <;> rfl

theorem not_resetting_of_requestsWait {s : State} (h : requestsWait s.inbox) : ¬ Spec.resetting s := by
  rintro ⟨r, hr⟩
  rw [hr] at h
  rcases h with h | ⟨cs, q, h | h⟩ <;> cases h

section
variable {s : State} (ha : s.active = true) (hw : requestsWait s.inbox)

include ha hw

theorem step_of_requestsWait : step s = stepRunning s := by
  rw [step_of_active ha (not_resetting_of_requestsWait hw), heldInbox_of_requestsWait hw]

theorem step_of_currentUop {u : Uop} (hc : currentUop Config.params s = some u) :
    step s = .next (performOne Config.params u s) := by
  rw [step_of_requestsWait ha hw, stepRunning_eq ha, hc]

theorem step_at_end (hc : currentUop Config.params s = none) : step s = .next (finishProgram s) := by
  rw [step_of_requestsWait ha hw, stepRunning_eq ha, hc]

end

/-- R121: the steps of a running operation, one µop each and one to end it, are the run of the µops still to perform. -/
theorem run_eq_runProgram {us : List Uop} {s : State} (ha : s.active = true) (hw : requestsWait s.inbox)
    (hd : (expand Config.params s).drop s.upc.toNat = us) :
    ∃ n, n ≤ us.length + 1 ∧ Sys2Proof.core.run n s = .next (runProgram Config.params us s) := by
  induction us generalizing s with
  | nil => exact ⟨1, Nat.le_refl 1, run_one (step_at_end ha hw (currentUop_of_drop_nil hd))⟩
  | cons u us ih =>
    have hstep := step_of_currentUop ha hw (currentUop_of_drop hd)
    rcases perform_cases Config.params u s with ⟨t, ht, hp⟩ | ⟨t, ht, hr⟩
    · have hone : performOne Config.params u s = advance t := by rw [performOne, ht]
      have hrest : runProgram Config.params (u :: us) s = runProgram Config.params us (advance t) := by
        rw [runProgram, ht]
      obtain ⟨n, hn, hrun⟩ := ih (hp.active.trans ha) (hp.inbox ▸ hw) (drop_of_progress hd hp)
      rw [hone] at hstep
      rw [hrest]
      exact ⟨n + 1, Nat.succ_le_succ hn, (run_succ hstep n).trans hrun⟩
    · have hone : performOne Config.params u s = runProgram Config.params (u :: us) s := by
        rw [performOne, runProgram, ht]
      rw [hone] at hstep
      exact ⟨1, Nat.succ_le_succ (Nat.zero_le _), run_one hstep⟩

/-- R300: the refusal of a link operation under FAULT, whatever its own rule. -/
theorem accept_refused {i : Instr} {s : State} (body : State → State) (hl : isLink i = true)
    (hw : i.wellFormed = true) (ha : s.active = false) (hf : s.fault = true) :
    accept i body s = refuseLink (latch i s) := by
  simp [accept, ha, hw, hl, hf]

/-- Settles O19: acceptance is one step, and what it starts runs µop by µop to where `runProgram` ends. -/
theorem stepwiseRunMeetsExec : Obligations.StepwiseRunMeetsExec := by
  intro i s bs r hl ha hd hi hwait
  obtain ⟨-, hw⟩ := decodePacket_some hd
  have hstep : step s = .next (accept i startProgram { s with inbox := r }) := by
    simp [step_packetStepwise ha hi, stepPacketStepwise, hd, hl]
  rcases Bool.eq_false_or_eq_true s.fault with hf | hf
  · have hexec : exec i { s with inbox := r } = .next (refuseLink (latch i { s with inbox := r })) := by
      rw [exec_eq, execUnder_link_refused hl hw (s := { s with inbox := r }) ha hf]
    rw [accept_refused startProgram hl hw (s := { s with inbox := r }) ha hf] at hstep
    exact ⟨1, Nat.le_add_left 1 _, (run_one hstep).trans hexec.symm⟩
  · have hexec : exec i { s with inbox := r } = .next (runProgram Config.params
        (expand Config.params (latch i { s with inbox := r })) (startProgram (latch i { s with inbox := r }))) := by
      rw [exec_eq, execUnder_link_runs hl hw (s := { s with inbox := r }) ha hf]
    have hexpand : expand Config.params (latch i { s with inbox := r }) = expand Config.params (latch i s) := by
      rw [latch_inbox_update]
      rfl
    obtain ⟨n, hn, hrun⟩ := run_eq_runProgram (us := expand Config.params (latch i { s with inbox := r }))
      (s := startProgram (latch i { s with inbox := r })) rfl (by rw [startProgram_inbox, latch_inbox]; exact hwait) rfl
    rw [accept_through (s := { s with inbox := r }) ha hw fun _ => hf] at hstep
    rw [← hexpand]
    exact ⟨n + 1, Nat.succ_le_succ hn, (run_succ hstep n).trans (hrun.trans hexec.symm)⟩

end Sys2Proof.Proofs
end

section
/-! PROOFS. What an instruction or a step leaves as it was (R21 to R29, R40, R45): the frame of the operations over the
state, said once for a relation they all keep, and its instances for the trace, the sticky flags, the framebuffer, ROT,
the result register and the requests. -/

namespace Sys2Proof.Proofs

open Sys2Proof.Machine

/-! ### Relations that every operation keeps -/

/-- A relation between the states before and after that the engine's operations and acceptance keep. -/
structure EngineKeeps (R : State → State → Prop) : Prop where
  refl : ∀ s, R s s
  trans : ∀ {s t r}, R s t → R t r → R s r
  latch : ∀ i s, R s (latch i s)
  illegal : ∀ s, R s (rejectIllegal s)
  refused : ∀ s, R s (refuseLink s)
  start : ∀ s, R s (startProgram s)
  finish : ∀ s, R s (finishProgram s)
  progress : ∀ {us s t}, Progress Config.params us s t → R s t
  raised : ∀ {u s t}, Raised Config.params u s t → R s t

section
variable {R : State → State → Prop} (hR : EngineKeeps R)

include hR

theorem performOne_keeps (u : Uop) (s : State) : R s (performOne Config.params u s) :=
  (performOne_cases Config.params u s).elim hR.progress hR.raised

theorem link_keeps {i : Instr} (hl : isLink i = true) (s : State) : R s (execUnder Config.params i s) := by
  have hstart := hR.trans (hR.latch i s) (hR.start _)
  rcases execUnder_link_cases (s := s) hl with
    ⟨-, he⟩ | ⟨-, -, he⟩ | ⟨-, -, he⟩ | ⟨-, -, -, ⟨t, he, hp⟩ | ⟨pre, u, post, t, -, hp, hr⟩⟩
  · rw [he]; exact hR.refl s
  · rw [he]; exact hR.illegal s
  · rw [he]; exact hR.trans (hR.latch i s) (hR.refused _)
  · rw [he]; exact hR.trans (hR.trans hstart (hR.progress hp)) (hR.finish t)
  · exact hR.trans (hR.trans hstart (hR.progress hp)) (hR.raised hr)

theorem panel_keeps {i : Instr} (hp : isPanel i = true) (s : State) : R s (execUnder Config.params i s) := by
  rw [execUnder_panel _ hp, panelCommand]
  split
  · exact performOne_keeps hR _ s
  · exact hR.illegal s

/-- A framebuffer operation or CLRF, from what it does when it is accepted. -/
theorem local_keeps {i : Instr} (hl : isLink i = false) (hp : isPanel i = false) (s : State)
    (heffect : LocalEffect i s (execUnder Config.params i s) → R s (execUnder Config.params i s))
    (hclear : i = .clrf → R s (clearFault (latch i s))) : R s (execUnder Config.params i s) := by
  rcases local_cases Config.params hl hp s with ⟨-, he⟩ | ⟨-, -, he⟩ | ⟨-, -, -, he⟩ | ⟨-, hi, he⟩
  · rw [he]; exact hR.refl s
  · rw [he]; exact hR.illegal s
  · exact heffect he
  · rw [he]; exact hclear hi

theorem execUnder_keeps (i : Instr) (s : State)
    (heffect : LocalEffect i s (execUnder Config.params i s) → R s (execUnder Config.params i s))
    (hclear : i = .clrf → R s (clearFault (latch i s))) : R s (execUnder Config.params i s) := by
  cases hl : isLink i with
  | true => exact link_keeps hR hl s
  | false =>
    cases hp : isPanel i with
    | true => exact panel_keeps hR hp s
    | false => exact local_keeps hR hl hp s heffect hclear

theorem accept_startProgram_keeps (i : Instr) (s : State) : R s (accept i startProgram s) := by
  rcases accept_cases i startProgram s with ⟨-, he⟩ | ⟨-, -, he⟩ | ⟨-, -, -, -, he⟩ | ⟨-, -, -, he⟩ <;> rw [he]
  · exact hR.refl s
  · exact hR.illegal s
  · exact hR.trans (hR.latch i s) (hR.refused _)
  · exact hR.trans (hR.latch i s) (hR.start _)

theorem runsOn_keeps {s u t : State} (h : RunsOn s u t) : R u t := by
  rcases h with ⟨-, rfl⟩ | ⟨o, -, rfl⟩
  · exact hR.finish u
  · exact performOne_keeps hR o u

theorem takes_keeps {bs : List Byte} {u t : State} (h : Takes bs u t)
    (hexec : ∀ i, decodePacket bs = some i → isLink i = false → R u (execUnder Config.params i u)) : R u t := by
  rcases h with ⟨-, rfl⟩ | ⟨i, hd, rfl | ⟨-, rfl⟩⟩
  · exact hR.illegal u
  · cases hl : isLink i with
    | true => exact link_keeps hR hl u
    | false => exact hexec i hd hl
  · exact accept_startProgram_keeps hR i u

/-- A step but for a block reset keeps what the engine keeps, if the operations that do not drive the link do, and the
requests still to come have no part in it. -/
theorem step_keeps {s t : State} (hin : ∀ r t, R { s with inbox := r } t → R s t) (hr : ¬ Spec.resetting s)
    (h : step s = .next t)
    (hexec : s.active = false → ∀ i r, Spec.requested s i → isPanel i = false → isLink i = false →
      R { s with inbox := r } (execUnder Config.params i { s with inbox := r })) : R s t := by
  rcases step_cases h with ⟨r, hi, -⟩ | ⟨-, r, -, hrun⟩ | ⟨-, -, rfl⟩ | ⟨-, r, -, rfl⟩ | ⟨ha, bs, r, hi, htake⟩
  · exact absurd ⟨r, hi⟩ hr
  · exact hin r t (runsOn_keeps hR hrun)
  · exact hR.refl _
  · exact hin r _ (hR.refl _)
  · exact hin r t (takes_keeps hR htake fun i hd hl => hexec ha i r ⟨bs, r, hd, hi⟩ (decodePacket_some hd).1 hl)

end

/-! ### The trace -/

/-- R40: the trace, held newest event first, has grown at its head. -/
def TraceGrows (s t : State) : Prop := s.traceRev <:+ t.traceRev

theorem traceGrows_of_eq {s t : State} (h : t.traceRev = s.traceRev) : TraceGrows s t := by
  rw [TraceGrows, h]

theorem engineKeeps_traceGrows : EngineKeeps TraceGrows where
  refl _ := List.suffix_refl _
  trans := List.IsSuffix.trans
  latch i s := traceGrows_of_eq (latch_traceRev s i)
  illegal _ := List.suffix_refl _
  refused _ := List.suffix_refl _
  start _ := List.suffix_refl _
  finish _ := List.suffix_refl _
  progress h := h.grows
  raised := by
    rintro u s t ⟨-, -, log, rfl⟩
    exact List.suffix_append _ _

/-- Settles O6: the trace read in order is the reverse of a list that grows at its head. -/
theorem traceOnlyGrows : Obligations.TraceOnlyGrows := by
  intro s t hr h
  obtain ⟨l, hl⟩ : TraceGrows s t := step_keeps engineKeeps_traceGrows (fun _ _ hg => hg) hr h
    fun _ i r _ hp hl => traceGrows_of_eq (traceRev_local _ hl hp { s with inbox := r })
  exact ⟨l.reverse, by rw [State.trace, State.trace, ← hl, List.reverse_append]⟩

/-! ### The sticky flags -/

/-- R27: the sticky flags that are set stay set. -/
def FlagsStay (s t : State) : Prop :=
  (s.stall = true → t.stall = true) ∧ (s.ill = true → t.ill = true) ∧ (s.rej = true → t.rej = true) ∧
    (s.fault = true → t.fault = true)

theorem FlagsStay.refl (s : State) : FlagsStay s s := ⟨id, id, id, id⟩

theorem FlagsStay.trans {s t r : State} (h : FlagsStay s t) (g : FlagsStay t r) : FlagsStay s r :=
  ⟨fun x => g.1 (h.1 x), fun x => g.2.1 (h.2.1 x), fun x => g.2.2.1 (h.2.2.1 x), fun x => g.2.2.2 (h.2.2.2 x)⟩

theorem flagsStay_of_eq {s t : State} (hstall : t.stall = s.stall) (hill : t.ill = s.ill) (hrej : t.rej = s.rej)
    (hfault : t.fault = s.fault) : FlagsStay s t := by
  rw [FlagsStay, hstall, hill, hrej, hfault]
  exact FlagsStay.refl s

theorem engineKeeps_flagsStay : EngineKeeps FlagsStay where
  refl := FlagsStay.refl
  trans := FlagsStay.trans
  latch i s := flagsStay_of_eq (latch_stall s i) (latch_ill s i) (latch_rej s i) (latch_fault s i)
  illegal _ := ⟨id, fun _ => rfl, id, id⟩
  refused _ := ⟨id, id, fun _ => rfl, id⟩
  start := FlagsStay.refl
  finish := FlagsStay.refl
  progress h := ⟨h.stall, fun x => h.ill.trans x, fun x => h.rej.trans x,
    fun x => (congrArg FaultRecord.fault h.record).trans x⟩
  raised := by
    rintro u s t ⟨-, -, log, rfl⟩
    exact ⟨fun x => Bool.or_eq_true_iff.2 (.inl x), id, id, fun _ => rfl⟩

/-- Settles O9: only CLRF and block reset clear a flag. -/
theorem flagsAreSticky : Obligations.FlagsAreSticky := by
  intro s t hr hclrf h
  refine step_keeps engineKeeps_flagsStay (fun _ _ hf => hf) hr h fun ha i r hi _ _ => ?_
  refine execUnder_keeps engineKeeps_flagsStay i _ (fun he => ?_) ?_
  · rw [he.1]
    exact engineKeeps_flagsStay.latch i { s with inbox := r }
  · rintro rfl
    exact absurd ⟨ha, hi⟩ hclrf

/-! ### Who writes -/

/-- R21, R23, R28, R45: what no link operation and no panel command writes. -/
def HostSideKept (s t : State) : Prop :=
  t.fb = s.fb ∧ t.rot = s.rot ∧ (t.rdata = s.rdata ∧ t.roob = s.roob) ∧ t.inbox = s.inbox

theorem engineKeeps_hostSideKept : EngineKeeps HostSideKept where
  refl _ := ⟨rfl, rfl, ⟨rfl, rfl⟩, rfl⟩
  trans := by
    rintro s t r ⟨hfb, hrot, ⟨hd, ho⟩, hi⟩ ⟨gfb, grot, ⟨gd, go⟩, gi⟩
    exact ⟨gfb.trans hfb, grot.trans hrot, ⟨gd.trans hd, go.trans ho⟩, gi.trans hi⟩
  latch i s := ⟨latch_fb s i, latch_rot s i, ⟨latch_rdata s i, latch_roob s i⟩, latch_inbox s i⟩
  illegal _ := ⟨rfl, rfl, ⟨rfl, rfl⟩, rfl⟩
  refused _ := ⟨rfl, rfl, ⟨rfl, rfl⟩, rfl⟩
  start _ := ⟨rfl, rfl, ⟨rfl, rfl⟩, rfl⟩
  finish _ := ⟨rfl, rfl, ⟨rfl, rfl⟩, rfl⟩
  progress h := ⟨h.fb, h.rot, h.result, h.inbox⟩
  raised := by
    rintro u s t ⟨-, -, log, rfl⟩
    exact ⟨rfl, rfl, ⟨rfl, rfl⟩, rfl⟩

/-- R16: what a framebuffer operation, SETROT or CLRF leaves of the link and the sequencer. -/
def LinkSideKept (s t : State) : Prop :=
  t.trace = s.trace ∧ t.pins = s.pins ∧ t.active = s.active ∧ t.upc = s.upc ∧ t.bidx = s.bidx ∧
    t.pollcnt = s.pollcnt ∧ t.shadows = s.shadows ∧ t.inbox = s.inbox

theorem linkSideKept_latch (i : Instr) (s : State) : LinkSideKept s (latch i s) := by
  rw [latch_eq]
  exact ⟨rfl, rfl, rfl, rfl, rfl, rfl, rfl, rfl⟩

theorem linkSideKept_local {i : Instr} (hl : isLink i = false) (hp : isPanel i = false) (s : State) :
    LinkSideKept s (execUnder Config.params i s) := by
  rcases local_cases Config.params hl hp s with ⟨-, he⟩ | ⟨-, -, he⟩ | ⟨-, -, -, he, -⟩ | ⟨-, -, he⟩ <;> rw [he]
  · exact ⟨rfl, rfl, rfl, rfl, rfl, rfl, rfl, rfl⟩
  · exact ⟨rfl, rfl, rfl, rfl, rfl, rfl, rfl, rfl⟩
  · exact linkSideKept_latch i s
  · exact linkSideKept_latch i s

/-- R21, R23, R28: the framebuffer operations that write FB, ROT and the result register. -/
def NamedWriters (i : Instr) (s t : State) : Prop :=
  ((∀ c, i ≠ .fill c) → (∀ x y c, i ≠ .pixel x y c) → t.fb = s.fb) ∧ ((∀ r, i ≠ .setrot r) → t.rot = s.rot) ∧
    ((∀ x y, i ≠ .getpix x y) → t.rdata = s.rdata ∧ t.roob = s.roob)

theorem namedWriters_of_hostSideKept {i : Instr} {s t : State} (h : HostSideKept s t) : NamedWriters i s t :=
  ⟨fun _ _ => h.1, fun _ => h.2.1, fun _ => h.2.2.1⟩

theorem namedWriters_local {i : Instr} (hl : isLink i = false) (hp : isPanel i = false) (s : State) :
    NamedWriters i s (execUnder Config.params i s) := by
  have hlatch := namedWriters_of_hostSideKept (i := i) (engineKeeps_hostSideKept.latch i s)
  rcases local_cases Config.params hl hp s with ⟨-, he⟩ | ⟨-, -, he⟩ | ⟨-, -, -, -, hfb, hrot, hres, -⟩ | ⟨-, -, he⟩
  · rw [he]; exact namedWriters_of_hostSideKept (engineKeeps_hostSideKept.refl s)
  · rw [he]; exact namedWriters_of_hostSideKept (engineKeeps_hostSideKept.illegal s)
  · exact ⟨hfb, hrot, hres⟩
  · rw [he]; exact hlatch

/-- R29: a µop that writes no shadow. -/
def leavesShadows (u : Uop) : Prop := ∀ h : Shadows, u.shadowsAfter h = h

theorem shadowsAfter_of_leavesShadows {p : List Uop} (hp : ∀ u ∈ p, leavesShadows u) (h : Shadows) :
    shadowsAfter p h = h := by
  induction p with
  | nil => rfl
  | cons u us ih =>
    obtain ⟨hu, hus⟩ := List.forall_mem_cons.1 hp
    rw [shadowsAfter_cons, hu h, ih hus]

/-- R29, R132 to R135: of the transport operations only RESET writes a shadow. -/
theorem expand_leavesShadows {i : Instr} (P : Params) (s : State) (hl : isLink i = true)
    (hq : Spec.sequenced i = false) (hi : i ≠ .reset) : ∀ u ∈ expand P (latch i s), leavesShadows u := by
  cases i with
  | reset => exact absurd rfl hi
  | wcmd b | wdat b | wdatn n ds | waitb =>
    intro u hu
    obtain rfl := List.mem_singleton.1 hu
    exact fun _ => rfl
  | initdisp | setem | initfull | initpart | updfull | updpart | pwron | pwroff | init | update | updwin
  | erase => cases hq
  | _ => cases hl

theorem shadows_of_raised {P : Params} {u : Uop} {s t : State} (h : Raised P u s t) : t.shadows = s.shadows := by
  obtain ⟨log, rfl⟩ := h.entry
  rfl

theorem shadows_link {i : Instr} (hl : isLink i = true) (hq : Spec.sequenced i = false) (hi : i ≠ .reset)
    (s : State) : (execUnder Config.params i s).shadows = s.shadows := by
  have hquiet := expand_leavesShadows Config.params s hl hq hi
  have hlatch : (latch i s).shadows = s.shadows := by simp [State.shadows]
  have hstart : (startProgram (latch i s)).shadows = s.shadows := hlatch
  rcases execUnder_link_cases (s := s) hl with
    ⟨-, he⟩ | ⟨-, -, he⟩ | ⟨-, -, he⟩ | ⟨-, -, -, ⟨t, he, hp⟩ | ⟨pre, u, post, t, hsplit, hp, hr⟩⟩
  · rw [he]
  · rw [he]; rfl
  · rw [he]; exact hlatch
  · rw [he]
    exact hp.shadows.trans ((shadowsAfter_of_leavesShadows hquiet _).trans hstart)
  · have hpre : ∀ v ∈ pre, leavesShadows v := fun v hv => hquiet v (by rw [hsplit]; simp [hv])
    exact (shadows_of_raised hr).trans (hp.shadows.trans ((shadowsAfter_of_leavesShadows hpre _).trans hstart))

theorem shadows_panel {i : Instr} (hp : isPanel i = true) (s : State) :
    (execUnder Config.params i s).shadows = s.shadows := by
  rw [execUnder_panel _ hp, panelCommand]
  split
  · exact (performOne_cases Config.params _ s).elim Progress.shadows shadows_of_raised
  · rfl

/-- Settles O10: link operations and panel commands keep to the link's side, the others to the framebuffer's, where each
of them is named with what it writes. -/
theorem onlyTheNamedWritersWrite : Obligations.OnlyTheNamedWritersWrite := by
  intro i s t he
  obtain rfl : execUnder Config.params i s = t := by rw [exec_eq] at he; injection he
  have kept (hkept : HostSideKept s (execUnder Config.params i s)) := namedWriters_of_hostSideKept (i := i) hkept
  cases hl : isLink i with
  | true =>
    have hkept := link_keeps engineKeeps_hostSideKept hl s
    obtain ⟨hfb, hrot, hres⟩ := kept hkept
    exact ⟨hfb, hrot, hres, fun h => Bool.noConfusion h, fun hq hi => shadows_link hl hq hi s, hkept.2.2.2⟩
  | false =>
    cases hp : isPanel i with
    | true =>
      have hkept := panel_keeps engineKeeps_hostSideKept hp s
      obtain ⟨hfb, hrot, hres⟩ := kept hkept
      exact ⟨hfb, hrot, hres, fun _ h => Bool.noConfusion h, fun _ _ => shadows_panel hp s, hkept.2.2.2⟩
    | false =>
      obtain ⟨hfb, hrot, hres⟩ := namedWriters_local hl hp s
      obtain ⟨htrace, hpins, hact, hupc, hbidx, hpoll, hsh, hin⟩ := linkSideKept_local hl hp s
      exact ⟨hfb, hrot, hres, fun _ _ => ⟨htrace, hpins, hact, hupc, hbidx, hpoll⟩, fun _ _ => hsh, hin⟩

end Sys2Proof.Proofs
end

section
/-! PROOFS. What becomes of an operation presented to the block (R22, R220, R296, R297, R308): its latches, the refusal
of nested faults, the two ends of a link operation. -/

namespace Sys2Proof.Proofs

open Sys2Proof.Machine

/-! ### Acceptance -/

/-- R95: a panel command is no operation the block accepts, and names no latch. -/
theorem acceptedLatches_of_isPanel {i : Instr} (hp : isPanel i = true) (l : Latches) : acceptedLatches i l = l := by
  cases i <;> first | rfl | cases hp

/-- R101: with no operation running a panel opcode is an illegal packet. -/
theorem execUnder_panel_idle (P : Params) {i : Instr} {s : State} (hp : isPanel i = true) (ha : s.active = false) :
    execUnder P i s = rejectIllegal s := by
  rw [execUnder_panel P hp, panelCommand, if_neg (by rw [ha]; decide)]

theorem latches_of_raised {P : Params} {u : Uop} {s t : State} (h : Raised P u s t) : t.latches = s.latches := by
  obtain ⟨log, rfl⟩ := h.entry
  rfl

/-- R22, R45: while an operation runs nothing writes a latch. -/
theorem latches_of_active (i : Instr) {s : State} (ha : s.active = true) :
    (execUnder Config.params i s).latches = s.latches := by
  cases hp : isPanel i with
  | true =>
    rw [execUnder_panel _ hp, panelCommand, if_pos ha]
    exact (performOne_cases Config.params _ s).elim Progress.latches latches_of_raised
  | false =>
    have he := exec_of_active hp ha
    rw [exec_eq] at he
    injection he with he
    rw [he]

/-- R102: an instruction that is not well formed sets ILL on the idle block. -/
theorem execUnder_illegal {i : Instr} {s : State} (hw : i.wellFormed = false) (ha : s.active = false) :
    execUnder Config.params i s = rejectIllegal s := by
  have hlegal : i.wellFormed ≠ true := by rw [hw]; decide
  cases hl : isLink i with
  | true =>
    rw [execUnder_link _ hl, linkOp, accept, ha, hw]
    rfl
  | false =>
    cases hp : isPanel i with
    | true => exact absurd (wellFormed_of_isPanel hp) hlegal
    | false =>
      have he := exec_illegal hl hp ha hw
      rw [exec_eq] at he
      injection he

/-- Settles O22: the latches are those of acceptance, or the instruction was not accepted. -/
theorem acceptanceLoadsTheLatches : Obligations.AcceptanceLoadsTheLatches := by
  refine fun i s => ⟨_, exec_eq i s, fun ha hw => ?_, latches_of_active i, fun hw => ?_⟩
  · cases hp : isPanel i with
    | true => rw [acceptedLatches_of_isPanel hp, execUnder_panel_idle _ hp ha]; rfl
    | false => exact latches_of_accepted hp hw ha
  · rcases Bool.eq_false_or_eq_true s.active with ha | ha
    · exact latches_of_active i ha
    · rw [execUnder_illegal hw ha]; rfl

/-! ### CLRF and nesting -/

/-- R300: with a fault pending no instruction but CLRF touches the record or starts. -/
theorem execUnder_under_fault {i : Instr} {s : State} (hf : s.fault = true) (ha : s.active = false) (hi : i ≠ .clrf) :
    (execUnder Config.params i s).active = false ∧ (execUnder Config.params i s).record = s.record := by
  have hlatch : (latch i s).active = false ∧ (latch i s).record = s.record := by simp [State.record, ha]
  cases hl : isLink i with
  | true =>
    rcases execUnder_link_cases (s := s) hl with ⟨h, -⟩ | ⟨-, -, he⟩ | ⟨-, -, he⟩ | ⟨-, h, -⟩
    · exact absurd (h.symm.trans ha) (by decide)
    · rw [he]; exact ⟨ha, rfl⟩
    · rw [he]; exact hlatch
    · exact absurd (h.symm.trans hf) (by decide)
  | false =>
    cases hp : isPanel i with
    | true => rw [execUnder_panel_idle _ hp ha]; exact ⟨ha, rfl⟩
    | false =>
      rcases local_cases Config.params hl hp s with ⟨h, -⟩ | ⟨-, -, he⟩ | ⟨-, -, -, he, -⟩ | ⟨-, h, -⟩
      · exact absurd (h.symm.trans ha) (by decide)
      · rw [he]; exact ⟨ha, rfl⟩
      · rw [he]; exact hlatch
      · exact absurd h hi

/-- Settles O50: CLRF is `clearFault` after its acceptance, and the other instructions leave a pending fault. -/
theorem clrfIsTheReturnAndFaultsDoNotNest : Obligations.ClrfIsTheReturnAndFaultsDoNotNest := by
  refine ⟨⟨rfl, rfl⟩, fun s ha => exec_clrf ha, fun s ha => exec_of_active rfl ha, fun i s t hf ha hi he => ?_⟩
  obtain rfl : execUnder Config.params i s = t := by rw [exec_eq] at he; injection he
  exact execUnder_under_fault hf ha hi

/-! ### The two ends of a link operation -/

/-- Settles O48: the run ends at the end of the micro-program, or at a µop that raised. -/
theorem faultIsPrecise : Obligations.FaultIsPrecise := by
  intro i s hl hw ha hf p
  rcases exec_link_cases hl hw ha hf with ⟨t, he, -, hc⟩ | ⟨pre, u, post, t, r, hp, he, -, hu, hF⟩
  · exact ⟨_, he, .inl hc⟩
  · have hlen := expand_length_lt params_wf (latch i s)
    rw [hp, List.length_append] at hlen
    have htake : p.take pre.length = pre := by simp [p, hp]
    have hget : p[pre.length]? = some u := by simp [p, hp]
    refine ⟨r, he, .inr ⟨pre.length, u, by omega, hget, hu.waits, ?_⟩⟩
    rw [htake]
    exact hF

/-- R121: a link operation that ends with no fault ran to its end. -/
theorem completed_of_no_fault {i : Instr} {s t : State} (hl : isLink i = true) (hw : i.wellFormed = true)
    (ha : s.active = false) (hf : s.fault = false) (he : exec i s = .next t) (ht : t.fault = false) :
    Completed i (linkEvents (expand Config.params (latch i s)))
      (shadowsAfter (expand Config.params (latch i s)) s.shadows) s t := by
  rcases exec_link_cases hl hw ha hf with ⟨m, hm, -, hc⟩ | ⟨pre, u, post, m, r, -, hr, -, -, hF⟩
  · obtain rfl : finishProgram m = t := by rw [hm] at he; injection he
    exact hc
  · obtain rfl : r = t := by rw [hr] at he; injection he
    exact Bool.noConfusion ((congrArg FaultRecord.fault hF.record).symm.trans ht)

/-- R308: PWR after a completed operation, from its micro-program. -/
theorem pwr_of_no_fault {i : Instr} {s t : State} {p : List Uop} {v : Bool} (hl : isLink i = true)
    (hw : i.wellFormed = true) (ha : s.active = false) (hf : s.fault = false) (he : exec i s = .next t)
    (ht : t.fault = false) (hp : expand Config.params (latch i s) = p)
    (hv : (shadowsAfter p s.shadows).pwr = v) : t.pwr = v := by
  have hc := completed_of_no_fault hl hw ha hf he ht
  rw [hp] at hc
  exact (congrArg Shadows.pwr hc.shadows).trans hv

/-- Settles O47: the last write of PWR in each of the micro-programs. -/
theorem powerShadowAfterCompletion : Obligations.PowerShadowAfterCompletion := by
  intro i s t ha hf he ht
  refine ⟨?_, ?_⟩
  · rintro (rfl | rfl | rfl | rfl | rfl)
    · exact pwr_of_no_fault rfl rfl ha hf he ht (expand_update _ s) (by rw [shadowsAfter_updateSeq])
    · exact pwr_of_no_fault rfl rfl ha hf he ht (expand_erase _ s) (by rw [shadowsAfter_eraseSeq])
    · exact pwr_of_no_fault (p := pwrOffSeq) rfl rfl ha hf he ht rfl rfl
    · exact pwr_of_no_fault (p := resetSeq) rfl rfl ha hf he ht rfl rfl
    · exact pwr_of_no_fault (p := initSeq) rfl rfl ha hf he ht rfl rfl
  · rintro (⟨em, rfl | rfl⟩ | rfl | ⟨x, y, w, h, r, rfl, hr⟩)
    · exact pwr_of_no_fault rfl rfl ha hf he ht (expand_initfull _ s em) (by rw [shadowsAfter_initFullSeq])
    · exact pwr_of_no_fault rfl rfl ha hf he ht (expand_initpart _ s em) (by rw [shadowsAfter_initPartSeq])
    · exact pwr_of_no_fault (p := pwrOnSeq) rfl rfl ha hf he ht rfl rfl
    · exact pwr_of_no_fault rfl rfl ha hf he ht (expand_updwin _ s hr) (by rw [shadowsAfter_updwinRectSeq])

/-! ### Raw data -/

theorem expand_wdat (P : Params) (b : Byte) (s : State) : expand P (latch (.wdat b) s) = [.dat b] := by
  change [Uop.dat (lo (byteOperand b))] = _
  rw [lo_byteOperand]

/-- R126: an empty burst moves no pin. -/
theorem sendBurst_nil_pins (s : State) : (sendBurst [] s).pins = s.pins := rfl

theorem linkEvents_burst (bs : List Byte) : linkEvents [.burst bs] = bs.map .dat := by
  simp [linkEvents, Uop.linkEvents]

/-- R133: WDAT from an idle block with no fault. -/
theorem exec_wdat (b : Byte) {s : State} (ha : s.active = false) (hf : s.fault = false) :
    ∃ t, exec (.wdat b) s = .next t ∧ Completed (.wdat b) [.dat b] s.shadows s t ∧ t.trace = s.trace ++ [.dat b] ∧
      t = { s with opc := 0x83, a0 := b.zeroExtend 16, upc := 0, traceRev := t.traceRev, pins := t.pins } := by
  obtain ⟨he, hc⟩ := exec_performed (i := .wdat b) rfl rfl ha hf (expand_wdat _ b s)
    (performAll_cons (us := []) (rfl : perform _ (.dat b) _ = .done (sendData b _)))
  refine ⟨_, he, hc, by simp [trace_sendData], ?_⟩
  simp only [ha]
  rfl

/-- R134: WDATN from an idle block with no fault. -/
theorem exec_wdatn {n : U16} {ds : List Byte} {s : State} (hn : ds.length = n.toNat) (ha : s.active = false)
    (hf : s.fault = false) :
    ∃ t, exec (.wdatn n ds) s = .next t ∧ Completed (.wdatn n ds) (ds.map .dat) s.shadows s t ∧
      t.trace = s.trace ++ ds.map .dat ∧ (ds = [] → t.pins = s.pins) ∧
      t = { s with opc := 0x84, a0 := n, payload := ds, upc := 0, bidx := 0, traceRev := t.traceRev,
                   pins := t.pins } := by
  have hw : (Instr.wdatn n ds).wellFormed = true := beq_iff_eq.2 hn
  obtain ⟨he, hc⟩ := exec_performed (i := .wdatn n ds) (p := [.burst ds]) rfl hw ha hf rfl
    (performAll_cons (us := []) (rfl : perform _ (.burst ds) _ = .done (sendBurst ds _)))
  rw [linkEvents_burst] at hc
  refine ⟨_, he, hc, by simp [trace_sendBurst], fun h => ?_, ?_⟩
  · subst h; simp [sendBurst_nil_pins]
  · rw [sendBurst_eq]
    simp only [ha]
    rfl

/-- Settles O26: the one µop of each samples nothing. -/
theorem rawDataOperations : Obligations.RawDataOperations := by
  refine ⟨fun b => ⟨rfl, rfl⟩, fun n ds hn => ⟨⟨rfl, ?_⟩, fun s => rfl⟩,
    fun s ha hf => ⟨fun b => exec_wdat b ha hf, fun n ds hn => exec_wdatn hn ha hf⟩⟩
  exact decodeOfEncode (.wdatn n ds) (beq_iff_eq.2 hn)

/-! ### Panel commands -/

theorem panelTable_decoded : ∀ e ∈ Spec.panelTable, decodePanel e.1 = some e.2 := by decide

/-- R101: the host opcodes up to 0x80 are reserved. -/
theorem illegalPacket_of_isPanel {i : Instr} (hp : isPanel i = true) (body : List Byte) :
    illegalPacket (opcodeOf i :: body) = true := by
  have hrange := opcodeOf_range i
  rw [if_pos hp] at hrange
  have hreserved : reservedOpcode (opcodeOf i) = true := decide_eq_true (.inl (by omega))
  exact (illegalPacket_cons ..).2 (.inl hreserved)

section
variable {b : Byte} {i : Instr} {s : State} (hd : decodePanel b = some i) (ha : s.active = true)

include hd ha

/-- R95, R124: the precheck met BUSY low, and the command Byte was sent. -/
theorem exec_panel_sent {k : Nat} (hk : FirstReady s k) (hlt : k < Config.params.busyMaxPolls) :
    exec i s = .next (advance (sendCommand b (waited true k s))) := by
  rw [exec_panel hd ha, performOne, perform_cmd_done b (waitBusy_waited true hk hlt)]

/-- R296: the precheck expired. -/
theorem exec_panel_expired (hs : StuckBusy Config.params s) : exec i s = .next (expired Config.params true s) := by
  rw [exec_panel hd ha, performOne, perform_cmd_raised b (waitBusy_expired true hs)]

end

/-- Settles O38: with no operation running the Byte is a reserved host opcode; in one it is the CMD of that Byte, with
the two ends of its precheck. -/
theorem panelCommandsSendTheirByte : Obligations.PanelCommandsSendTheirByte := by
  intro b i h
  have hd : decodePanel b = some i := panelTable_decoded (b, i) h
  obtain ⟨hp, rfl⟩ := decodePanel_some hd
  refine ⟨⟨illegalPacket_of_isPanel hp [], fun s ha => ?_⟩, fun s ha => ⟨fun k hk hlt => ?_, fun hs => ?_⟩⟩
  · rw [exec_eq, execUnder_panel_idle _ hp ha]
    rfl
  · refine ⟨_, exec_panel_sent hd ha hk hlt, by simp [trace_sendCommand, trace_waited true hk], ?_⟩
    rw [waited_eq]
    rfl
  · refine ⟨_, exec_panel_expired hd ha hs, trace_expired .., ?_⟩
    have heq := expired_eq params_wf.polls true s
    rwa [Bool.or_true] at heq

end Sys2Proof.Proofs
end

section
/-! PROOFS. The sequencer and refresh micro-programs as wholes (R30, R96, R164, R189): how long they are and what they
send, the data of each command, and the streams against the window. -/

namespace Sys2Proof.Proofs

open Sys2Proof.Machine

/-! ### Counting what is sent -/

def isCmd : Event → Bool
  | .cmd _ => true
  | _ => false

def isDat : Event → Bool
  | .dat _ => true
  | _ => false

/-- The data Bytes of a list of commands. -/
def dataBytes (l : List (Byte × List Byte)) : Nat := (l.map (·.2.length)).sum

theorem dataBytes_append (l m : List (Byte × List Byte)) : dataBytes (l ++ m) = dataBytes l + dataBytes m := by
  simp [dataBytes]

theorem countP_isCmd_commands (l : List (Byte × List Byte)) : (Spec.commands l).countP isCmd = l.length := by
  induction l with
  | nil => rfl
  | cons c l ih =>
    have hone : (Spec.command c).countP isCmd = 1 := by
      simp [Spec.command, isCmd, List.countP_cons, List.countP_eq_zero]
    rw [commands_cons, List.countP_append, hone, ih, List.length_cons, Nat.add_comm]

theorem countP_isDat_commands (l : List (Byte × List Byte)) : (Spec.commands l).countP isDat = dataBytes l := by
  induction l with
  | nil => rfl
  | cons c l ih =>
    have hone : (Spec.command c).countP isDat = c.2.length := by
      have hdat : isDat ∘ Event.dat = fun _ => true := rfl
      simp [Spec.command, isDat, List.countP_map, hdat]
    rw [commands_cons, List.countP_append, hone, ih]
    rfl

theorem length_commands (l : List (Byte × List Byte)) : (Spec.commands l).length = l.length + dataBytes l := by
  induction l with
  | nil => rfl
  | cons c l ih =>
    have hone : (Spec.command c).length = 1 + c.2.length := by simp [Spec.command, Nat.add_comm]
    have hdata : dataBytes (c :: l) = c.2.length + dataBytes l := rfl
    rw [commands_cons, List.length_append, hone, ih, List.length_cons, hdata]
    omega

/-! ### Counts of the generators -/

theorem length_entryMode (em : Byte) : (Spec.entryMode em).length = 5 := by rw [entryMode_eq]; rfl

theorem dataBytes_entryMode (em : Byte) : dataBytes (Spec.entryMode em) = 10 := by rw [entryMode_eq]; rfl

/-- R164: INITDISP sends 16 commands. -/
theorem length_initDisplay (P : Params) (em : Byte) : (Spec.initDisplay P em).length = 16 := by
  rw [Spec.initDisplay, List.length_append, length_entryMode]
  rfl

/-- R164: INITDISP sends `S + 16` data Bytes. -/
theorem dataBytes_initDisplay (P : Params) (em : Byte) : dataBytes (Spec.initDisplay P em) = P.reg.total + 16 := by
  rw [Spec.initDisplay, dataBytes_append, dataBytes_entryMode]
  simp only [dataBytes, RegisterData.total, List.map_cons, List.map_nil, List.sum_cons, List.sum_nil, List.length_cons,
    List.length_nil]
  omega

theorem length_initFull (P : Params) (em : Byte) : (Spec.initFull P em).length = 19 := by
  rw [Spec.initFull, List.length_append, length_initDisplay]
  rfl

theorem dataBytes_initFull (P : Params) (em : Byte) :
    dataBytes (Spec.initFull P em) = P.reg.total + P.lutFull.length + 17 := by
  rw [Spec.initFull, dataBytes_append, dataBytes_initDisplay]
  simp only [dataBytes, List.map_cons, List.map_nil, List.sum_cons, List.sum_nil, List.length_cons, List.length_nil]
  omega

/-- R182, R188: a full refresh as one list of commands. -/
theorem fullRefresh_eq_commands (P : Params) (em : Byte) (bs : List Byte) :
    Spec.fullRefresh P em bs = Spec.commands (Spec.initFull P em ++ [(0x24, bs)] ++
      (repointed P (Spec.entryMode em).tail ++ [(0x26, bs)]) ++
      [(0x22, [0xC7]), (0x20, []), (0x22, [0xC3]), (0x20, [])]) := by
  rw [Spec.fullRefresh, dual_eq, List.append_nil, ← List.append_assoc, ← commands_append, ← commands_append,
    ← commands_append]

section
variable {P : Params} (hP : P.repointSecondBurst = false) (em : Byte) (bs : List Byte)

include hP

theorem repointed_of_not (l : List (Byte × List Byte)) : repointed P l = [] := by
  rw [repointed, hP]
  rfl

/-- R189: a full refresh with no re-pointing sends 25 commands. -/
theorem countP_isCmd_fullRefresh : (Spec.fullRefresh P em bs).countP isCmd = 25 := by
  simp only [fullRefresh_eq_commands, countP_isCmd_commands, List.length_append, length_initFull, repointed_of_not hP]
  rfl

theorem countP_isDat_fullRefresh :
    (Spec.fullRefresh P em bs).countP isDat = P.reg.total + P.lutFull.length + 2 * bs.length + 19 := by
  simp only [fullRefresh_eq_commands, countP_isDat_commands, dataBytes_append, dataBytes_initFull, repointed_of_not hP]
  simp only [dataBytes, List.map_cons, List.map_nil, List.sum_cons, List.sum_nil, List.length_cons, List.length_nil]
  omega

end

/-- R66: a rectangle is as many Bytes as its columns by its rows. -/
theorem length_rectBytes (P : Params) (fb : List Host.Cell) (r : Rect) :
    (rectBytes P fb r).length = (r.xeb + 1 - r.xsb) * (r.ye + 1 - r.ys) := by
  simp [rectBytes, upTo, List.length_flatMap, Nat.mul_comm]

theorem length_image (P : Params) (fb : List Host.Cell) : (image P fb).length = 4000 :=
  length_rectBytes P fb { xsb := 0, xeb := 15, ys := 0, ye := 249 }

theorem length_eraseBytes : eraseBytes.length = 4000 := List.length_replicate

def isSh : Uop → Bool
  | .sh _ => true
  | _ => false

theorem countP_isSh_regWrite (c : Byte) (ds : List Byte) : (regWrite c ds).countP isSh = 0 := by
  simp [regWrite, isSh, List.countP_eq_zero]

/-- R164: INITDISP writes the shadows three times. -/
theorem countP_isSh_initDispSeq (P : Params) (em : Byte) : (initDispSeq P em).countP isSh = 3 := by
  simp only [initDispSeq, List.countP_append, countP_isSh_regWrite]
  rfl

/-- Settles O37: the generators' lengths added up; the events of a micro-program are those of its commands. -/
theorem microProgramLengths : Obligations.MicroProgramLengths := by
  intro P s em x y w h r hr
  simp only [expand_setem, expand_initdisp, expand_initfull, expand_initpart, expand_update, expand_erase,
    expand_updwin P s hr, linkEvents_initDispSeq, linkEvents_updateSeq, linkEvents_eraseSeq]
  refine ⟨setEmSeq_length em, initDispSeq_length P em, initFullSeq_length P em, initPartSeq_length P em, rfl, rfl, rfl,
    rfl, rfl, updateSeq_length P s.fb, eraseSeq_length P, updwinRectSeq_length P s.fb r, ?_, ?_,
    fun hP => ⟨?_, ?_, ?_, ?_⟩, ?_, ?_, fun v => rfl, fun a b => rfl, fun f => rfl, fun m => rfl, rfl⟩
  · exact (countP_isCmd_commands _).trans (length_initDisplay P em)
  · exact (countP_isDat_commands _).trans (dataBytes_initDisplay P em)
  · exact countP_isCmd_fullRefresh hP _ _
  · exact countP_isCmd_fullRefresh hP _ _
  · exact (countP_isDat_fullRefresh hP _ _).trans (by rw [length_image])
  · exact (countP_isDat_fullRefresh hP _ _).trans (by rw [length_eraseBytes])
  · rw [length_commands, length_initDisplay, dataBytes_initDisplay, initDispSeq_length]
    omega
  · exact countP_isSh_initDispSeq P em

/-! ### The data of each command -/

/-- R96: each command carries data its row of the table allows. -/
def Tabled (P : Params) (l : List (Byte × List Byte)) : Prop := ∀ c ∈ l, Spec.dataAllowed P c.1 c.2

theorem tabled_nil (P : Params) : Tabled P [] := by simp [Tabled]

theorem Tabled.cons {P : Params} {c : Byte × List Byte} {l : List (Byte × List Byte)}
    (hc : Spec.dataAllowed P c.1 c.2) (hl : Tabled P l) : Tabled P (c :: l) := List.forall_mem_cons.2 ⟨hc, hl⟩

theorem Tabled.append {P : Params} {l m : List (Byte × List Byte)} (hl : Tabled P l) (hm : Tabled P m) :
    Tabled P (l ++ m) := List.forall_mem_append.2 ⟨hl, hm⟩

theorem lo_toNat_of_lt {v : U16} (h : v.toNat < 256) : (lo v).toNat = v.toNat := by
  rw [lo_toNat, Nat.mod_eq_of_lt h]

theorem hi_of_lt {v : U16} (h : v.toNat < 256) : hi v = 0 :=
  BitVec.eq_of_toNat_eq (by rw [hi_toNat, Nat.div_eq_of_lt h]; rfl)

/-- R151, R153: a window of the panel, and its counter. -/
theorem tabled_windowCommands (P : Params) {w : Window} (hw : windowFits w = true) :
    Tabled P (windowCommands w) := by
  obtain ⟨hxs, hxe, hys, hye⟩ := of_decide_eq_true hw
  have hlys : (lo w.ys).toNat < 250 := by rwa [lo_toNat_of_lt (by omega)]
  have hlye : (lo w.ye).toNat < 250 := by rwa [lo_toNat_of_lt (by omega)]
  have h44 : Spec.dataAllowed P 0x44 [w.xs, w.xe] := ⟨w.xs, w.xe, hxs, hxe, rfl⟩
  have h45 : Spec.dataAllowed P 0x45 [lo w.ys, hi w.ys, lo w.ye, hi w.ye] :=
    ⟨lo w.ys, lo w.ye, hlys, hlye, by rw [hi_of_lt (by omega), hi_of_lt (by omega)]⟩
  have h4E : Spec.dataAllowed P 0x4E [w.xs] := ⟨w.xs, hxs, rfl⟩
  have h4F : Spec.dataAllowed P 0x4F [lo w.ys, hi w.ys] := ⟨lo w.ys, hlys, by rw [hi_of_lt (by omega)]⟩
  exact .cons h44 (.cons h45 (.cons h4E (.cons h4F (tabled_nil P))))

/-- R152: the mode is at most 3 after clamping. -/
theorem tabled_entryMode (P : Params) (em : Byte) : Tabled P (Spec.entryMode em) := by
  have hmode : ((clampEntryMode em).setWidth 8).toNat ≤ 3 := by
    rw [BitVec.toNat_setWidth_of_le (by decide)]
    omega
  rw [entryMode_eq]
  exact .cons ⟨_, hmode, rfl⟩ (tabled_windowCommands P (windowFits_entryWindow _))

/-- R154: the nine fixed registers carry their parameters, the fixed window lies in the panel. -/
theorem tabled_initDisplay (P : Params) (em : Byte) : Tabled P (Spec.initDisplay P em) := by
  have h44 : Spec.dataAllowed P 0x44 [0, 15] := ⟨0, 15, by decide, by decide, rfl⟩
  have h45 : Spec.dataAllowed P 0x45 [0, 0, 249, 0] := ⟨0, 249, by decide, by decide, rfl⟩
  have hlast : Tabled P [(0x3C, P.reg.border), (0x2C, P.reg.vcom), (0x03, P.reg.gate), (0x04, P.reg.source),
      (0x3A, P.reg.timingA), (0x3B, P.reg.timingB)] :=
    .cons rfl (.cons (.inl rfl) (.cons rfl (.cons rfl (.cons rfl (.cons rfl (tabled_nil P))))))
  exact .append (.cons rfl (.cons rfl (.cons rfl (.cons h44 (.cons h45 hlast))))) (tabled_entryMode P em)

/-- R150: the activations, each with its mode Byte. -/
theorem tabled_activation {P : Params} {m : Byte} {l : List (Byte × List Byte)}
    (hm : Spec.dataAllowed P 0x22 [m]) (hl : Tabled P l) : Tabled P ((0x22, [m]) :: (0x20, []) :: l) :=
  .cons hm (.cons rfl hl)

theorem dataAllowed_full (P : Params) : Spec.dataAllowed P 0x22 [0xC7] := .inl rfl

theorem dataAllowed_part (P : Params) : Spec.dataAllowed P 0x22 [0x04] := .inr (.inl rfl)

theorem dataAllowed_pwrOn (P : Params) : Spec.dataAllowed P 0x22 [0xC0] := .inr (.inr (.inl rfl))

theorem dataAllowed_pwrOff (P : Params) : Spec.dataAllowed P 0x22 [0xC3] := .inr (.inr (.inr rfl))

theorem tabled_initFull (P : Params) (em : Byte) : Tabled P (Spec.initFull P em) :=
  .append (tabled_initDisplay P em) (.cons (.inl rfl) (tabled_activation (dataAllowed_pwrOn P) (tabled_nil P)))

theorem tabled_initPart (P : Params) (em : Byte) : Tabled P (Spec.initPart P em) :=
  .append (tabled_initDisplay P em)
    (.cons (.inr rfl) (.cons (.inr rfl) (tabled_activation (dataAllowed_pwrOn P) (tabled_nil P))))

theorem tabled_repointed {P : Params} {l : List (Byte × List Byte)} (h : Tabled P l) : Tabled P (repointed P l) := by
  unfold repointed
  split
  · exact h
  · exact tabled_nil P

/-- R181: a stream is at least one Byte and at most the panel. -/
def StreamSize (bs : List Byte) : Prop := 1 ≤ bs.length ∧ bs.length ≤ 4000

theorem tabled_fullRefresh (P : Params) (em : Byte) {bs : List Byte} (hbs : StreamSize bs) :
    Tabled P (commandsOf (Spec.fullRefresh P em bs)) := by
  have hagain : Tabled P (Spec.entryMode em).tail :=
    fun c hc => tabled_entryMode P em c (List.mem_of_mem_tail hc)
  rw [fullRefresh_eq_commands, commandsOf_commands]
  refine .append (.append (.append (tabled_initFull P em) ?_) (.append (tabled_repointed hagain) ?_)) ?_
  · exact .cons hbs (tabled_nil P)
  · exact .cons hbs (tabled_nil P)
  · exact tabled_activation (dataAllowed_full P) (tabled_activation (dataAllowed_pwrOff P) (tabled_nil P))

theorem streamSize_rectBytes (P : Params) (fb : List Host.Cell) {x y w h : Nat} {r : Rect}
    (hr : Spec.Clipped x y w h r) : StreamSize (rectBytes P fb r) := by
  obtain ⟨hxeb, hys, hye⟩ := bounds_of_clipped hr
  obtain ⟨⟨hw, hh, hx, hy⟩, hxsb, hxeb', hys', hye'⟩ := hr
  rw [StreamSize, length_rectBytes]
  have hcols : 1 ≤ r.xeb + 1 - r.xsb ∧ r.xeb + 1 - r.xsb ≤ 16 := by omega
  have hrows : 1 ≤ r.ye + 1 - r.ys ∧ r.ye + 1 - r.ys ≤ 250 := by omega
  exact ⟨Nat.mul_le_mul hcols.1 hrows.1, Nat.mul_le_mul hcols.2 hrows.2⟩

theorem tabled_updwinRectSeq (P : Params) (fb : List Host.Cell) {x y w h : Nat} {r : Rect}
    (hr : Spec.Clipped x y w h r) : Tabled P (commandsOf (linkEvents (updwinRectSeq P fb r))) := by
  have hwin := tabled_windowCommands P (windowFits_window_of_clipped hr)
  have hbs := streamSize_rectBytes P fb hr
  rw [commandsOf_updwinRectSeq]
  refine .append (.append (.append (tabled_initPart P 3) hwin) ?_) (.append (tabled_repointed hwin) ?_)
  · exact .cons hbs (tabled_nil P)
  · exact .cons hbs (tabled_activation (dataAllowed_part P) (tabled_nil P))

/-- R186: an empty clipped rectangle has nothing to do. -/
theorem expand_updwin_of_clip_none (P : Params) (s : State) {x y w h : U16}
    (hclip : clip x.toNat y.toNat w.toNat h.toNat = none) : expand P (latch (.updwin x y w h) s) = [] := by
  change updwinSeq P s.fb x y w h = _
  rw [updwinSeq, hclip]

/-- Settles O39: the commands of each micro-program, row by row. -/
theorem panelDataIsAsTabled : Obligations.PanelDataIsAsTabled := by
  intro P i s hq
  change Tabled P (commandsOf (linkEvents (expand P (latch i s))))
  cases i with
  | initdisp em =>
    rw [expand_initdisp, linkEvents_initDispSeq, commandsOf_commands]; exact tabled_initDisplay P em
  | setem em => rw [expand_setem, linkEvents_setEmSeq, commandsOf_commands]; exact tabled_entryMode P em
  | initfull em => rw [expand_initfull, linkEvents_initFullSeq, commandsOf_commands]; exact tabled_initFull P em
  | initpart em => rw [expand_initpart, linkEvents_initPartSeq, commandsOf_commands]; exact tabled_initPart P em
  | updfull => exact tabled_activation (dataAllowed_full P) (tabled_nil P)
  | updpart => exact tabled_activation (dataAllowed_part P) (tabled_nil P)
  | pwron => exact tabled_activation (dataAllowed_pwrOn P) (tabled_nil P)
  | pwroff => exact tabled_activation (dataAllowed_pwrOff P) (tabled_nil P)
  | init => exact .cons rfl (tabled_nil P)
  | update =>
    rw [expand_update, linkEvents_updateSeq]
    exact tabled_fullRefresh P _ (by rw [StreamSize, length_image]; omega)
  | updwin x y w h =>
    cases hclip : clip x.toNat y.toNat w.toNat h.toNat with
    | none => rw [expand_updwin_of_clip_none P s hclip]; exact tabled_nil P
    | some r =>
      have hr := (clip_eq_some_iff ..).1 hclip
      rw [expand_updwin P s hr]
      exact tabled_updwinRectSeq P s.fb hr
  | erase =>
    rw [expand_erase, linkEvents_eraseSeq]
    exact tabled_fullRefresh P _ (by rw [StreamSize, length_eraseBytes]; omega)
  | _ => cases hq

/-! ### The streams against the window -/

/-- R30: in a micro-program begun with the shadows `h`, each burst that follows a RAM-write command fills the shadow
window of that point. -/
def StreamsFit (h : Shadows) (p : List Uop) : Prop :=
  ∀ pre c bs post, p = pre ++ .cmd c :: .burst bs :: post → c = 0x24 ∨ c = 0x26 →
    (shadowsAfter pre h).winv = true ∧ bs.length = (shadowsAfter pre h).win.bytes

/-- R237, R238: a micro-program with no RAM-write command. -/
def ramFree (p : List Uop) : Bool :=
  p.all fun
    | .cmd c => c != 0x24 && c != 0x26
    | _ => true

@[simp] theorem ramFree_append (p q : List Uop) : ramFree (p ++ q) = (ramFree p && ramFree q) := List.all_append

@[simp] theorem ramFree_regWrite (c : Byte) (ds : List Byte) :
    ramFree (regWrite c ds) = (c != 0x24 && c != 0x26) := by
  simp [ramFree, regWrite]

@[simp] theorem ramFree_windowAndPointer (w : Window) : ramFree (windowAndPointer w) = true := rfl

@[simp] theorem ramFree_ramArea (w : Window) : ramFree (ramArea w) = true := rfl

@[simp] theorem ramFree_setEmSeq (em : Byte) : ramFree (setEmSeq em) = true := rfl

@[simp] theorem ramFree_lutSeq (P : Params) (full : Bool) : ramFree (lutSeq P full) = true := rfl

@[simp] theorem ramFree_pwrOnSeq : ramFree pwrOnSeq = true := rfl

@[simp] theorem ramFree_initDispSeq (P : Params) (em : Byte) : ramFree (initDispSeq P em) = true := by
  simp [initDispSeq]

@[simp] theorem ramFree_initFullSeq (P : Params) (em : Byte) : ramFree (initFullSeq P em) = true := by
  simp [initFullSeq]

@[simp] theorem ramFree_initPartSeq (P : Params) (em : Byte) : ramFree (initPartSeq P em) = true := by
  simp [initPartSeq]

theorem cmd_notMem_of_ramFree {p : List Uop} (hp : ramFree p = true) {c : Byte} (hc : c = 0x24 ∨ c = 0x26) :
    .cmd c ∉ p := by
  intro hmem
  have := List.all_eq_true.1 hp _ hmem
  rcases hc with rfl | rfl <;> exact absurd this (by decide)

/-- µops with no RAM-write command have no stream of their own. -/
theorem streamsFit_append {p q : List Uop} {h : Shadows} (hp : ramFree p = true)
    (hq : StreamsFit (shadowsAfter p h) q) : StreamsFit h (p ++ q) := by
  intro pre c bs post he hc
  rcases List.append_eq_append_iff.1 he with ⟨as, rfl, has⟩ | ⟨l, rfl, hl⟩
  · rw [shadowsAfter_append]
    exact hq as c bs post has hc
  · cases l with
    | nil => exact List.append_nil pre ▸ hq [] c bs post hl.symm hc
    | cons u l =>
      obtain ⟨rfl, -⟩ := List.cons.inj hl
      exact absurd (by simp) (cmd_notMem_of_ramFree hp hc)

theorem streamsFit_nil (h : Shadows) : StreamsFit h [] := by
  intro pre c bs post he
  simp at he

theorem streamsFit_of_ramFree {p : List Uop} (hp : ramFree p = true) (h : Shadows) : StreamsFit h p :=
  List.append_nil p ▸ streamsFit_append hp (streamsFit_nil _)

/-- A stream that fills the window. -/
theorem streamsFit_stream {c : Byte} {bs : List Byte} {q : List Uop} {h : Shadows} (hv : h.winv = true)
    (hbs : bs.length = h.win.bytes) (hq : StreamsFit h q) : StreamsFit h (.cmd c :: .burst bs :: q) := by
  intro pre d ds post he hd
  match pre, he with
  | [], he => cases he; exact ⟨hv, hbs⟩
  | [_], he => cases he
  | _ :: _ :: pre, he => cases he; exact hq pre d ds post rfl hd

/-- R181: both streams, with a gap that leaves the window and the re-pointing to that same window. -/
theorem streamsFit_dualStream {P : Params} {bs : List Byte} {gap q : List Uop} {h : Shadows} (hv : h.winv = true)
    (hbs : bs.length = h.win.bytes) (hg : ramFree gap = true) (hgap : shadowsAfter gap h = h)
    (hq : StreamsFit h q) : StreamsFit h (dualStream P bs gap (windowAndPointer h.win) ++ q) := by
  have hre : ramFree (if P.repointSecondBurst then windowAndPointer h.win else []) = true := by split <;> rfl
  have hagain : shadowsAfter (if P.repointSecondBurst then windowAndPointer h.win else []) h = h := by
    split
    · rw [shadowsAfter_windowAndPointer, ← hv]
    · rfl
  simp only [dualStream, List.append_assoc, List.cons_append, List.nil_append]
  refine streamsFit_stream hv hbs (streamsFit_append hg ?_)
  rw [hgap]
  refine streamsFit_append hre ?_
  rw [hagain]
  exact streamsFit_stream hv hbs hq

/-- R152: the window of every entry mode is the whole panel. -/
theorem entryWindow_bytes (e : BitVec 2) : (entryWindow e).bytes = 4000 := by
  revert e; decide

/-- R182, R188: both full refreshes stream the panel to the window of their entry mode. -/
theorem streamsFit_fullRefresh (P : Params) (em : Byte) {bs : List Byte} (hbs : bs.length = 4000) (h : Shadows) :
    StreamsFit h (initFullSeq P em ++ dualStream P bs [] (windowAndPointer (entryWindow (clampEntryMode em))) ++
      updFullSeq ++ pwrOffSeq) := by
  rw [List.append_assoc, List.append_assoc]
  refine streamsFit_append (ramFree_initFullSeq P em) ?_
  rw [shadowsAfter_initFullSeq, entryShadows_eq]
  exact streamsFit_dualStream rfl (hbs.trans (entryWindow_bytes _).symm) rfl rfl (streamsFit_of_ramFree rfl _)

/-- R185: the streams of a rectangle fill its window. -/
theorem length_rectBytes_of_clipped (P : Params) (fb : List Host.Cell) {x y w h : Nat} {r : Rect}
    (hr : Spec.Clipped x y w h r) : (rectBytes P fb r).length = r.window.bytes := by
  obtain ⟨hxeb, hys, hye⟩ := bounds_of_clipped hr
  obtain ⟨⟨hw, hh, hx, hy⟩, hxsb, hxeb', hys', hye'⟩ := hr
  have hxle : r.xsb ≤ r.xeb := by omega
  have hyle : r.ys ≤ r.ye := by omega
  simp only [length_rectBytes, Window.bytes, Rect.window, BitVec.toNat_ofNat]
  congr 1 <;> omega

theorem streamsFit_updwinRectSeq (P : Params) (fb : List Host.Cell) {x y w h : Nat} {r : Rect}
    (hr : Spec.Clipped x y w h r) (k : Shadows) : StreamsFit k (updwinRectSeq P fb r) := by
  rw [updwinRectSeq, List.append_assoc]
  refine streamsFit_append (by simp) ?_
  rw [shadowsAfter_append, shadowsAfter_windowAndPointer]
  exact streamsFit_dualStream rfl (length_rectBytes_of_clipped P fb hr) rfl rfl (streamsFit_of_ramFree rfl _)

theorem streamsFit_expand (P : Params) {i : Instr} (s : State) (hq : Spec.sequenced i = true) (h : Shadows) :
    StreamsFit h (expand P (latch i s)) := by
  cases i with
  | initdisp em => exact streamsFit_of_ramFree (ramFree_initDispSeq P _) h
  | setem em => exact streamsFit_of_ramFree (ramFree_setEmSeq _) h
  | initfull em => exact streamsFit_of_ramFree (ramFree_initFullSeq P _) h
  | initpart em => exact streamsFit_of_ramFree (ramFree_initPartSeq P _) h
  | updfull | updpart | pwron | pwroff | init => exact streamsFit_of_ramFree rfl h
  | update =>
    have hfull := streamsFit_fullRefresh P (P.emUpdate.setWidth 8) (length_image P s.fb) h
    rwa [clampEntryMode_setWidth] at hfull
  | updwin x y w h =>
    cases hclip : clip x.toNat y.toNat w.toNat h.toNat with
    | none => rw [expand_updwin_of_clip_none P s hclip]; exact streamsFit_nil _
    | some r =>
      have hr := (clip_eq_some_iff ..).1 hclip
      rw [expand_updwin P s hr]
      exact streamsFit_updwinRectSeq P s.fb hr _
  | erase => exact streamsFit_fullRefresh P 1 length_eraseBytes h
  | _ => cases hq

/-- Settles O41: what a run has performed fixes its shadows, and each stream fits the window they hold. -/
theorem streamsMatchTheWindow : Obligations.StreamsMatchTheWindow := by
  intro P i s u t pre post c bs hq hp hc ht
  obtain ⟨hprog, -⟩ := performAll_some ht
  have hsh : t.shadows = shadowsAfter pre u.shadows := by rw [hprog.shadows, shadowsAfter_append]; rfl
  obtain ⟨hv, hlen⟩ := streamsFit_expand P s hq u.shadows pre c bs post hp hc
  rw [← hsh] at hv hlen
  exact ⟨hv, hlen⟩

end Sys2Proof.Proofs
end

section
/-! PROOFS. The framebuffer under a rotation transform (R61 to R64, R202, R203, R207, R210): a pixel reads back what was
written to it, and the ranges of the default transform. -/

namespace Sys2Proof.Proofs

open Sys2Proof.Machine

/-! ### One bit of a Byte -/

section
variable (b m k : Byte)

theorem or_and_self_mask : (b ||| m) &&& m = m := by
  ext i hi
  rw [BitVec.getElem_and, BitVec.getElem_or]
  cases m[i] <;> simp

theorem and_not_and_self_mask : (b &&& ~~~m) &&& m = 0 := by
  ext i; simp

variable {m k} (h : m &&& k = 0)

include h

theorem or_and_of_disjoint : (b ||| m) &&& k = b &&& k := by
  ext i hi
  have hbit : (m[i] && k[i]) = false := by rw [← BitVec.getElem_and, h]; simp
  rw [BitVec.getElem_and, BitVec.getElem_or, BitVec.getElem_and, Bool.and_or_distrib_right, hbit, Bool.or_false]

theorem and_not_and_of_disjoint : (b &&& ~~~m) &&& k = b &&& k := by
  ext i hi
  have hbit : (m[i] && k[i]) = false := by rw [← BitVec.getElem_and, h]; simp
  rw [BitVec.getElem_and, BitVec.getElem_and, BitVec.getElem_not, BitVec.getElem_and]
  cases hm : m[i] with
  | true => rw [hm, Bool.true_and] at hbit; simp [hbit]
  | false => simp

end

/-! ### One pixel -/

theorem pixelMask_ne_zero (px : Nat) : pixelMask px ≠ 0 := by
  have hmask : ∀ k, k < 8 → (0x80 : Byte) >>> k ≠ 0 := by decide
  exact hmask _ (Nat.mod_lt _ (by decide))

/-- R62: the bits of a Byte's eight pixels are disjoint. -/
theorem pixelMask_disjoint {px qx : Nat} (h : px % 8 ≠ qx % 8) : pixelMask px &&& pixelMask qx = 0 := by
  have hmask : ∀ j, j < 8 → ∀ k, k < 8 → j ≠ k → ((0x80 : Byte) >>> j) &&& ((0x80 : Byte) >>> k) = 0 := by decide
  exact hmask _ (Nat.mod_lt _ (by decide)) _ (Nat.mod_lt _ (by decide)) h

section
variable {m : List Host.Cell} (hm : Memory.wf m) (px py : Nat) (c : Bool)

include hm

/-- R63, R64: a pixel reads back as it was written. -/
theorem fbGet_fbSet_same : fbGet (fbSet m px py c) px py = c := by
  rw [fbGet, readByte_fbSet hm, if_pos rfl]
  cases c with
  | true => rw [if_pos rfl, or_and_self_mask]; exact decide_eq_true (pixelMask_ne_zero px)
  | false => simp [and_not_and_self_mask]

/-- R61 to R64: a pixel write changes no other pixel. -/
theorem fbGet_fbSet_other {qx qy : Nat} (hpx : px < 128) (hqx : qx < 128) (hne : (px, py) ≠ (qx, qy)) :
    fbGet (fbSet m px py c) qx qy = fbGet m qx qy := by
  rw [fbGet, fbGet, readByte_fbSet hm]
  split
  · rename_i hidx
    have hbit : px % 8 ≠ qx % 8 := fun hb => hne (Prod.ext_iff.2 (pixel_unique hpx hqx hidx hb))
    have hdisj := pixelMask_disjoint hbit
    cases c with
    | true => rw [if_pos rfl, or_and_of_disjoint _ hdisj]
    | false => rw [if_neg Bool.false_ne_true, and_not_and_of_disjoint _ hdisj]
  · rfl

end

/-! ### Read-back -/

section
variable (P : Params) (x y : U16) {c : Byte} {s : State}

theorem execUnder_pixel (hc : c = 0 ∨ c = 1) (ha : s.active = false) :
    execUnder P (.pixel x y c) s = drawPixel P x y (decide (c = 1)) (latch (.pixel x y c) s) := by
  have hw : (Instr.pixel x y c).wellFormed = true := decide_eq_true ((colour_lt_two_iff c).2 hc)
  rw [execUnder, pixelOp, accept_local _ rfl ha hw, colourBit_of_legal hc]

theorem execUnder_getpix (ha : s.active = false) :
    execUnder P (.getpix x y) s = readPixel P x y (latch (.getpix x y) s) := by
  rw [execUnder, getpixOp, accept_local _ rfl ha rfl]

/-- R206: what GETPIX reads of a pixel inside the framebuffer. -/
theorem execUnder_getpix_inside (ha : s.active = false) {p : Int × Int} (hp : physical P s x y = p)
    (hin : Spec.inside p) : (execUnder P (.getpix x y) s).rdata = fbGet s.fb p.1.toNat p.2.toNat ∧
      (execUnder P (.getpix x y) s).roob = false := by
  have hp' : physical P (latch (.getpix x y) s) x y = p := hp
  rw [execUnder_getpix P x y ha, readPixel_inside hp' hin]
  exact ⟨rfl, rfl⟩

end

/-- R202: a transform that meets its laws maps different operands to different physical pairs. -/
theorem rotXform_ne {P : Params} (hrot : RotationLaws P.rotXform) (r : BitVec 2) {x y u v : U16}
    (hne : (u, v) ≠ (x, y)) : P.rotXform r x.toInt y.toInt ≠ P.rotXform r u.toInt v.toInt := by
  intro h
  obtain ⟨hx, hy⟩ := hrot.2 _ _ _ _ _ h
  exact hne (Prod.ext (BitVec.eq_of_toInt_eq hx.symm) (BitVec.eq_of_toInt_eq hy.symm))

/-- R61: inside the framebuffer the physical pair is one of natural numbers. -/
theorem toNat_pair_ne {p q : Int × Int} (hp : Spec.inside p) (hq : Spec.inside q) (hne : p ≠ q) :
    (p.1.toNat, p.2.toNat) ≠ (q.1.toNat, q.2.toNat) := by
  obtain ⟨hp1, -, hp2, -⟩ := hp
  obtain ⟨hq1, -, hq2, -⟩ := hq
  intro h
  obtain ⟨h1, h2⟩ := Prod.ext_iff.1 h
  exact hne (Prod.ext (by omega) (by omega))

/-- Settles O55: the write is of one bit, which the transform gives to no other operands. -/
theorem readBackLaw : Obligations.ReadBackLaw := by
  refine ⟨exec_eq, ?_⟩
  intro P x y c s hrot ha hwf hc at_ t
  refine ⟨fun hin => ?_, fun hout => ?_⟩
  · have ht : t = { latch (.pixel x y c) s with
        fb := fbSet s.fb (at_ x y).1.toNat (at_ x y).2.toNat (decide (c = 1)) } := by
      rw [← latch_fb s (.pixel x y c)]
      exact (execUnder_pixel P x y hc ha).trans (drawPixel_inside (P := P) rfl _ hin)
    have hta : t.active = false := by rw [ht]; exact ha
    have hat (u v : U16) : physical P t u v = at_ u v := by rw [ht]; rfl
    have hfb : t.fb = fbSet s.fb (at_ x y).1.toNat (at_ x y).2.toNat (decide (c = 1)) := by rw [ht]
    obtain ⟨hread, hroob⟩ := execUnder_getpix_inside P x y hta (hat x y) hin
    refine ⟨?_, hroob, fun u v hne hin' => ?_⟩
    · rw [hread, hfb, fbGet_fbSet_same hwf]
    · rw [(execUnder_getpix_inside P u v hta (hat u v) hin').1, (execUnder_getpix_inside P u v ha rfl hin').1, hfb]
      refine fbGet_fbSet_other hwf _ _ _ ?_ ?_ (toNat_pair_ne hin hin' (rotXform_ne hrot s.rot hne))
      · obtain ⟨-, h, -⟩ := hin; omega
      · obtain ⟨-, h, -⟩ := hin'; omega
  · have ht : t = latch (.pixel x y c) s := (execUnder_pixel P x y hc ha).trans (drawPixel_outside (P := P) rfl _ hout)
    rw [ht, latch_fb]

/-! ### The default transform -/

/-- R210: how far the default transform takes I16 operands. -/
theorem defaultRotation_range (r : BitVec 2) {x y : Int} (hx : -32768 ≤ x ∧ x ≤ 32767) (hy : -32768 ≤ y ∧ y ≤ 32767) :
    -32768 ≤ (defaultRotation r x y).1 ∧ (defaultRotation r x y).1 ≤ 33017 ∧
      -32768 ≤ (defaultRotation r x y).2 ∧ (defaultRotation r x y).2 ≤ 33017 := by
  unfold defaultRotation
  split <;> dsimp only <;> omega

/-- Settles O56: each range is the transform's equation put into the bounds. -/
theorem defaultRotationRanges : Obligations.DefaultRotationRanges := by
  refine ⟨rfl, ?_⟩
  intro x y visible
  refine ⟨⟨rfl, rfl, rfl, rfl⟩, ?_, ?_, ?_, ?_, ?_, ?_, ?_, ?_,
    fun r hx hx' hy hy' => defaultRotation_range r ⟨hx, hx'⟩ ⟨hy, hy'⟩⟩
  · rw [inBounds_iff]; change (0 ≤ x ∧ x < 128 ∧ 0 ≤ y ∧ y < 250) ↔ _; omega
  · rw [inBounds_iff]; change (0 ≤ 121 - y ∧ 121 - y < 128 ∧ 0 ≤ x ∧ x < 250) ↔ _; omega
  · rw [inBounds_iff]; change (0 ≤ 121 - x ∧ 121 - x < 128 ∧ 0 ≤ 249 - y ∧ 249 - y < 250) ↔ _; omega
  · rw [inBounds_iff]; change (0 ≤ y ∧ y < 128 ∧ 0 ≤ 249 - x ∧ 249 - x < 250) ↔ _; omega
  · change (0 ≤ x ∧ x ≤ 121 ∧ 0 ≤ y ∧ y ≤ 249) ↔ _; omega
  · change (0 ≤ 121 - y ∧ 121 - y ≤ 121 ∧ 0 ≤ x ∧ x ≤ 249) ↔ _; omega
  · change (0 ≤ 121 - x ∧ 121 - x ≤ 121 ∧ 0 ≤ 249 - y ∧ 249 - y ≤ 249) ↔ _; omega
  · change (0 ≤ y ∧ y ≤ 121 ∧ 0 ≤ 249 - x ∧ 249 - x ≤ 249) ↔ _; omega

end Sys2Proof.Proofs
end

section
/-! PROOFS. What the panel observer of R251 holds after a refresh (assumed, log entry 8): the commands of a refresh one
by one, and a stream that fills its window and brings the counter back to its start. -/

namespace Sys2Proof.Proofs

open Sys2Proof.Machine

/-! ### The observer, command by command -/

theorem observe_append (p : Panel) (t u : List Event) : p.observe (t ++ u) = (p.observe t).observe u :=
  List.foldl_append ..

/-- R251: the observer says nothing of samples. -/
theorem observe_noPolls (p : Panel) (t : List Event) : p.observe (noPolls t) = p.observe t := by
  induction t generalizing p with
  | nil => rfl
  | cons e t ih =>
    cases e with
    | poll v => exact ih p
    | rst _ | dly _ | cmd _ | dat _ => exact ih _

/-- R251: the panel with the last command and its data forgotten, which is all the next command finds of them. -/
def settled (p : Panel) : Panel := { p with sel := none, got := [] }

/-- R251: the panel after a command with its data. -/
def obey (p : Panel) (c : Byte × List Byte) : Panel := settled (p.observe (Spec.command c))

theorem settled_observe_commands (p : Panel) (l : List (Byte × List Byte)) :
    settled (p.observe (Spec.commands l)) = l.foldl obey (settled p) := by
  induction l generalizing p with
  | nil => rfl
  | cons c l ih =>
    rw [commands_cons, observe_append, ih]
    rfl

/-- R251: the commands the observer has an entry for. -/
def observedCommands : List Nat := [0x11, 0x44, 0x45, 0x4E, 0x4F, 0x24, 0x26]

theorem takeData_unobserved {c : Byte} (hc : c.toNat ∉ observedCommands) (p : Panel) (d : Byte) (got : List Byte) :
    Panel.takeData p c d got = p := by
  unfold Panel.takeData
  split
  case h_8 => rfl
  all_goals
    rename_i h
    exact absurd (by rw [h]; decide) hc

theorem observe_data_unobserved {c : Byte} (hc : c.toNat ∉ observedCommands) (p : Panel) (hp : p.sel = some c)
    (ds : List Byte) : p.observe (ds.map .dat) = { p with got := p.got ++ ds } := by
  induction ds generalizing p with
  | nil => simp [Panel.observe]
  | cons d ds ih =>
    have hsee : p.see (.dat d) = { p with got := p.got ++ [d] } := by
      simp only [Panel.see, hp, takeData_unobserved hc]
    have hrest := ih { p with got := p.got ++ [d] } hp
    rw [List.map_cons, Panel.observe, List.foldl_cons, hsee]
    simpa [Panel.observe] using hrest

/-- R251: any other command leaves the panel's registers and memories. -/
theorem obey_unobserved {c : Byte} (hc : c.toNat ∉ observedCommands) (p : Panel) (ds : List Byte) :
    obey p (c, ds) = settled p := by
  have hdata := observe_data_unobserved hc (p.see (.cmd c)) rfl ds
  change settled ((p.see (.cmd c)).observe (ds.map .dat)) = _
  rw [hdata]
  rfl

/-! ### The registers -/

section
variable (p : Panel)

theorem obey_entryModeByte (a : Byte) : obey p (0x11, [a]) = settled { p with em := a.setWidth 2 } := by
  simp [obey, Spec.command, Panel.observe, Panel.see, Panel.takeData, settled]

theorem obey_windowX (a b : Byte) : obey p (0x44, [a, b]) = settled { p with xs := a, xe := b } := by
  simp [obey, Spec.command, Panel.observe, Panel.see, Panel.takeData, settled]

theorem obey_windowY (a b c d : Byte) :
    obey p (0x45, [a, b, c, d]) = settled { p with ys := b ++ a, ye := d ++ c } := by
  simp [obey, Spec.command, Panel.observe, Panel.see, Panel.takeData, settled]

theorem obey_counterX (a : Byte) : obey p (0x4E, [a]) = settled { p with cx := a } := by
  simp [obey, Spec.command, Panel.observe, Panel.see, Panel.takeData, settled]

theorem obey_counterY (a b : Byte) : obey p (0x4F, [a, b]) = settled { p with cy := b ++ a } := by
  simp [obey, Spec.command, Panel.observe, Panel.see, Panel.takeData, settled]

end

/-- R151, R153: the panel with window `w` and the counter at its start. -/
def pointedTo (w : Window) (p : Panel) : Panel :=
  settled { p with xs := w.xs, xe := w.xe, ys := w.ys, ye := w.ye, cx := w.xs, cy := w.ys }

theorem obey_windowCommands (w : Window) (p : Panel) : (windowCommands w).foldl obey p = pointedTo w p := by
  have hjoin (v : U16) : hi v ++ lo v = v := joinBytes_lo_hi v
  simp only [windowCommands, List.foldl_cons, List.foldl_nil, obey_windowX, obey_windowY, obey_counterX, obey_counterY,
    hjoin]
  rfl

/-- R152: the panel after the entry mode is set. -/
def enteredMode (e : BitVec 2) (p : Panel) : Panel := pointedTo (entryWindow e) { p with em := e }

theorem obey_entryMode (em : Byte) (p : Panel) :
    (Spec.entryMode em).foldl obey p = enteredMode (clampEntryMode em) p := by
  have hwidth (e : BitVec 2) : (e.setWidth 8).setWidth 2 = e := by revert e; decide
  rw [entryMode_eq, List.foldl_cons, obey_entryModeByte, hwidth, obey_windowCommands]
  rfl

/-- Commands the observer has no entry for change nothing of a settled panel. -/
theorem foldl_obey_unobserved {l : List (Byte × List Byte)} (hl : ∀ c ∈ l, c.1.toNat ∉ observedCommands) {p : Panel}
    (hp : settled p = p) : l.foldl obey p = p := by
  induction l with
  | nil => rfl
  | cons c l ih =>
    rw [List.foldl_cons, obey_unobserved (hl c List.mem_cons_self), hp,
      ih fun d hd => hl d (List.mem_cons_of_mem _ hd)]

theorem enteredMode_obey_unobserved {c : Byte} (hc : c.toNat ∉ observedCommands) (e : BitVec 2) (p : Panel)
    (ds : List Byte) : enteredMode e (obey p (c, ds)) = enteredMode e p := by
  rw [obey_unobserved hc]
  rfl

/-- R154: of InitDisplay the entry mode's window is the one that stays. -/
theorem obey_initDisplay (P : Params) (em : Byte) (p : Panel) :
    (Spec.initDisplay P em).foldl obey p = enteredMode (clampEntryMode em) p := by
  rw [Spec.initDisplay, List.foldl_append, obey_entryMode]
  simp only [List.foldl_cons, List.foldl_nil, enteredMode_obey_unobserved (c := 0x3B) (by decide),
    enteredMode_obey_unobserved (c := 0x3A) (by decide), enteredMode_obey_unobserved (c := 0x04) (by decide),
    enteredMode_obey_unobserved (c := 0x03) (by decide), enteredMode_obey_unobserved (c := 0x2C) (by decide),
    enteredMode_obey_unobserved (c := 0x3C) (by decide), obey_windowX, obey_windowY,
    obey_unobserved (c := 0x74) (by decide), obey_unobserved (c := 0x7E) (by decide),
    obey_unobserved (c := 0x01) (by decide)]
  rfl

theorem obey_initFull (P : Params) (em : Byte) (p : Panel) :
    (Spec.initFull P em).foldl obey p = enteredMode (clampEntryMode em) p := by
  rw [Spec.initFull, List.foldl_append, obey_initDisplay]
  exact foldl_obey_unobserved (by simp [observedCommands]) rfl

theorem obey_initPart (P : Params) (em : Byte) (p : Panel) :
    (Spec.initPart P em).foldl obey p = enteredMode (clampEntryMode em) p := by
  rw [Spec.initPart, List.foldl_append, obey_initDisplay]
  exact foldl_obey_unobserved (by simp [observedCommands]) rfl

end Sys2Proof.Proofs
end

section
/-! PROOFS. What a stream that fills its window writes into the observer's image memory (R251): the counter sweeps the
columns of each row and the rows in their order, and comes back to its start. -/

namespace Sys2Proof.Proofs

open Sys2Proof.Machine

/-! ### The path of the counter -/

def windowOf (p : Panel) : Window := { xs := p.xs, xe := p.xe, ys := p.ys, ye := p.ye }

/-- R251: a row and a byte column. -/
abbrev Place := U16 × Byte

def counterOf (p : Panel) : Place := (p.cy, p.cx)

def movedTo (a : Place) (p : Panel) : Panel := { p with cy := a.1, cx := a.2 }

/-- R251: the step of the row counter in entry mode `e`. -/
def rowStep (e : BitVec 2) : U16 := if e.getLsbD 1 then 1 else -1

/-- R251: where the counter goes from `a` in entry mode `e` and window `w`. -/
def nextPlace (e : BitVec 2) (w : Window) (a : Place) : Place :=
  if a.2 = w.xe then (if a.1 = w.ye then w.ys else a.1 + rowStep e, w.xs)
  else (a.1, if e.getLsbD 0 then a.2 + 1 else a.2 - 1)

theorem stepCounter_eq (p : Panel) : p.stepCounter = movedTo (nextPlace p.em (windowOf p) (counterOf p)) p := by
  have hrow (y : U16) : (if p.em.getLsbD 1 then y + 1 else y - 1) = y + rowStep p.em := by
    rw [rowStep]
    split
    · rfl
    · rw [BitVec.sub_eq_add_neg]
  rw [Panel.stepCounter, hrow]
  unfold nextPlace
  split
  · rename_i h; rw [if_pos (show (counterOf p).2 = (windowOf p).xe from h)]; rfl
  · rename_i h; rw [if_neg (show ¬ (counterOf p).2 = (windowOf p).xe from h)]; rfl

/-- The counter goes through the places `l` from `a` and stands at `b` then. -/
def Path (e : BitVec 2) (w : Window) : List Place → Place → Place → Prop
  | [], a, b => a = b
  | c :: l, a, b => c = a ∧ Path e w l (nextPlace e w a) b

theorem Path.append {e : BitVec 2} {w : Window} {l m : List Place} {a b c : Place} (hl : Path e w l a b)
    (hm : Path e w m b c) : Path e w (l ++ m) a c := by
  induction l generalizing a with
  | nil => exact (show a = b from hl) ▸ hm
  | cons d l ih => exact ⟨hl.1, ih hl.2⟩

/-! ### Sweeps -/

/-- `l` is `a`, `a + δ`, `a + 2 δ` and so on, up to the first that is `b`. -/
inductive Sweep {w : Nat} (δ b : BitVec w) : BitVec w → List (BitVec w) → Prop
  | last : Sweep δ b b [b]
  | step {a : BitVec w} {l : List (BitVec w)} : a ≠ b → Sweep δ b (a + δ) l → Sweep δ b a (a :: l)

theorem ofNat_ne_ofNat {w m n : Nat} (hm : m < 2 ^ w) (hn : n < 2 ^ w) (h : m ≠ n) :
    BitVec.ofNat w m ≠ BitVec.ofNat w n := by
  intro he
  have := congrArg BitVec.toNat he
  rw [BitVec.toNat_ofNat, BitVec.toNat_ofNat, Nat.mod_eq_of_lt hm, Nat.mod_eq_of_lt hn] at this
  exact h this

theorem sweep_up {w a n : Nat} (h : a + n < 2 ^ w) :
    Sweep 1 (BitVec.ofNat w (a + n)) (BitVec.ofNat w a) ((List.range' a (n + 1)).map (BitVec.ofNat w)) := by
  induction n generalizing a with
  | zero => exact .last
  | succ n ih =>
    have hsucc : BitVec.ofNat w a + 1 = BitVec.ofNat w (a + 1) := (BitVec.ofNat_add a 1).symm
    have hrest := ih (a := a + 1) (by omega)
    rw [← hsucc, Nat.add_right_comm a 1 n] at hrest
    exact .step (ofNat_ne_ofNat (by omega) h (by omega)) hrest

theorem sweep_down {w a n : Nat} (h : a + n < 2 ^ w) :
    Sweep (-1) (BitVec.ofNat w a) (BitVec.ofNat w (a + n))
      ((List.range' a (n + 1)).reverse.map (BitVec.ofNat w)) := by
  induction n with
  | zero => exact .last
  | succ n ih =>
    have hpred : BitVec.ofNat w (a + (n + 1)) + -1 = BitVec.ofNat w (a + n) := by
      rw [← Nat.add_assoc, BitVec.ofNat_add (a + n) 1, ← BitVec.sub_eq_add_neg]
      exact BitVec.add_sub_cancel _ _
    have hrest := ih (by omega)
    rw [← hpred] at hrest
    rw [List.range'_concat, List.reverse_append, Nat.one_mul]
    exact .step (ofNat_ne_ofNat h (by omega) (by omega)) hrest

section
variable {e : BitVec 2} {w : Window} {cols : List Byte} {rows : List U16}

/-- R251: the columns of a row, for an entry mode that increments X. -/
theorem path_row (he : e.getLsbD 0 = true) {x : Byte} (hx : Sweep 1 w.xe x cols) (y : U16) :
    Path e w (cols.map (y, ·)) (y, x) (nextPlace e w (y, w.xe)) := by
  induction hx with
  | last => exact ⟨rfl, rfl⟩
  | @step x l hne _ ih =>
    refine ⟨rfl, ?_⟩
    rw [nextPlace, if_neg hne, if_pos he]
    exact ih

/-- R251: the rows of a window, column by column; after the last the counter is at its start. -/
theorem path_rows (he : e.getLsbD 0 = true) (hx : Sweep 1 w.xe w.xs cols) {y : U16}
    (hy : Sweep (rowStep e) w.ye y rows) :
    Path e w (rows.flatMap fun y => cols.map (y, ·)) (y, w.xs) (w.ys, w.xs) := by
  have hrow (y : U16) : Path e w (cols.map (y, ·)) (y, w.xs) (if y = w.ye then w.ys else y + rowStep e, w.xs) := by
    simpa [nextPlace] using path_row he hx y
  induction hy with
  | last => simpa using hrow w.ye
  | @step y l hne _ ih =>
    have hthis := hrow y
    rw [if_neg hne] at hthis
    exact hthis.append ih

end

/-! ### The Bytes written -/

/-- R251: of the image memory that RAM-write command `c` goes to, `f` of it. -/
def stored (c : Byte) (f : (U16 → Byte → Byte) → U16 → Byte → Byte) (p : Panel) : Panel :=
  { p with cur := if c = 0x24 then f p.cur else p.cur, prev := if c = 0x26 then f p.prev else p.prev }

theorem takeData_ramWrite {c : Byte} (hc : c = 0x24 ∨ c = 0x26) (p : Panel) (d : Byte) (got : List Byte) :
    Panel.takeData p c d got = Panel.stepCounter (stored c (p.poke · d) p) := by
  rcases hc with rfl | rfl <;> rfl

/-- The memory `ram` with `f` at the places `l`. -/
def overlay (l : List Place) (f : Place → Byte) (ram : U16 → Byte → Byte) : U16 → Byte → Byte :=
  fun y x => if (y, x) ∈ l then f (y, x) else ram y x

def InPanel (a : Place) : Prop := a.1.toNat < 250 ∧ a.2.toNat < 16

theorem overlay_nil (f : Place → Byte) (ram : U16 → Byte → Byte) : overlay [] f ram = ram := rfl

theorem overlay_poke {p : Panel} (hp : InPanel (counterOf p)) (l : List Place) (f : Place → Byte)
    (ram : U16 → Byte → Byte) :
    overlay l f (p.poke ram (f (counterOf p))) = overlay (counterOf p :: l) f ram := by
  funext y x
  have hy : p.cy.toNat < 250 := hp.1
  have hx : p.cx.toNat < 16 := hp.2
  by_cases hl : (y, x) ∈ l
  · simp [overlay, hl]
  · by_cases ha : (y, x) = counterOf p
    · obtain ⟨rfl, rfl⟩ := Prod.mk.inj ha
      simp [overlay, Panel.poke, counterOf, hl, hy, hx]
    · have : ¬ (y = p.cy ∧ x = p.cx) := fun h => ha (Prod.ext h.1 h.2)
      simp [overlay, Panel.poke, hl, ha, ← and_assoc, this]

/-- R251: the panel after data Byte `d` of RAM-write command `c`. -/
def afterByte (c d : Byte) (p : Panel) : Panel :=
  { movedTo (nextPlace p.em (windowOf p) (counterOf p)) (stored c (p.poke · d) p) with got := p.got ++ [d] }

theorem see_ramByte {c : Byte} (hc : c = 0x24 ∨ c = 0x26) {p : Panel} (hsel : p.sel = some c) (d : Byte) :
    p.see (.dat d) = afterByte c d p := by
  simp only [Panel.see, hsel, takeData_ramWrite hc, stepCounter_eq]
  rfl

theorem settled_observe_stream {c : Byte} (hc : c = 0x24 ∨ c = 0x26) {l : List Place} (hin : ∀ a ∈ l, InPanel a)
    (f : Place → Byte) {b : Place} {p : Panel} (hsel : p.sel = some c)
    (hpath : Path p.em (windowOf p) l (counterOf p) b) :
    settled (p.observe ((l.map f).map .dat)) = settled (movedTo b (stored c (overlay l f) p)) := by
  induction l generalizing p with
  | nil =>
    obtain rfl : counterOf p = b := hpath
    simp [Panel.observe, overlay_nil, movedTo, stored, counterOf]
  | cons a l ih =>
    obtain ⟨rfl, hrest⟩ := hpath
    have hcons (ram : U16 → Byte → Byte) := overlay_poke (hin _ List.mem_cons_self) l f ram
    rw [List.map_cons, List.map_cons, Panel.observe, List.foldl_cons, see_ramByte hc hsel]
    refine (ih (p := afterByte c _ p) (fun a ha => hin a (List.mem_cons_of_mem _ ha)) hsel hrest).trans ?_
    rcases hc with rfl | rfl <;> simp [settled, movedTo, stored, afterByte, hcons]

/-- R251: a stream along a path of the panel. -/
theorem obey_stream {c : Byte} (hc : c = 0x24 ∨ c = 0x26) {l : List Place} (hin : ∀ a ∈ l, InPanel a)
    (f : Place → Byte) {b : Place} {p : Panel} (hpath : Path p.em (windowOf p) l (counterOf p) b) :
    obey p (c, l.map f) = settled (movedTo b (stored c (overlay l f) p)) :=
  settled_observe_stream (p := p.see (.cmd c)) hc hin f rfl hpath

/-- R181: both streams of `f` over the places of a window, from the counter's start: both memories hold it there. -/
theorem obey_bothStreams {e : BitVec 2} {w : Window} {l : List Place} (hin : ∀ a ∈ l, InPanel a)
    (hpath : Path e w l (w.ys, w.xs) (w.ys, w.xs)) (f : Place → Byte) (p : Panel) :
    [(0x24, l.map f), (0x26, l.map f)].foldl obey (pointedTo w { p with em := e }) =
      pointedTo w { p with em := e, cur := overlay l f p.cur, prev := overlay l f p.prev } := by
  have hcur : obey (pointedTo w { p with em := e }) (0x24, l.map f) =
      pointedTo w { p with em := e, cur := overlay l f p.cur } := by
    rw [obey_stream (.inl rfl) hin f (p := pointedTo w { p with em := e }) hpath]
    rfl
  rw [List.foldl_cons, List.foldl_cons, List.foldl_nil, hcur,
    obey_stream (.inr rfl) hin f (p := pointedTo w { p with em := e, cur := overlay l f p.cur }) hpath]
  rfl

end Sys2Proof.Proofs
end

section
/-! PROOFS. What the two image memories of R251's observer (assumed, log entry 8) hold after UPDATE, ERASE and UPDWIN:
the streams are the Bytes of the places their counter goes through. -/

namespace Sys2Proof.Proofs

open Sys2Proof.Machine

/-! ### The places a refresh streams to -/

/-- R66: the places of the columns `cols` of the rows `rows`, row by row. -/
def places (rows cols : List Nat) : List Place :=
  (rows.map (BitVec.ofNat 16)).flatMap fun y => (cols.map (BitVec.ofNat 8)).map (y, ·)

theorem length_places (rows cols : List Nat) : (places rows cols).length = rows.length * cols.length := by
  simp [places, List.length_flatMap, Function.comp_def]

theorem mem_map_ofNat {w : Nat} {l : List Nat} (hl : ∀ n ∈ l, n < 2 ^ w) (v : BitVec w) :
    v ∈ l.map (BitVec.ofNat w) ↔ v.toNat ∈ l := by
  rw [List.mem_map]
  refine ⟨?_, fun h => ⟨_, h, by rw [BitVec.ofNat_toNat, BitVec.setWidth_eq]⟩⟩
  rintro ⟨n, hn, rfl⟩
  rwa [BitVec.toNat_ofNat, Nat.mod_eq_of_lt (hl n hn)]

theorem mem_places {rows cols : List Nat} (hrows : ∀ j ∈ rows, j < 250) (hcols : ∀ i ∈ cols, i < 16) (a : Place) :
    a ∈ places rows cols ↔ a.1.toNat ∈ rows ∧ a.2.toNat ∈ cols := by
  obtain ⟨y, x⟩ := a
  have hy := mem_map_ofNat (w := 16) (fun j hj => (hrows j hj).trans (by decide)) y
  have hx := mem_map_ofNat (w := 8) (fun i hi => (hcols i hi).trans (by decide)) x
  rw [← hy, ← hx, places, List.mem_flatMap]
  constructor
  · rintro ⟨z, hz, ha⟩
    obtain ⟨v, hv, he⟩ := List.mem_map.1 ha
    cases he
    exact ⟨hz, hv⟩
  · exact fun ⟨hy, hx⟩ => ⟨y, hy, List.mem_map_of_mem hx⟩

theorem mem_upTo {a b n : Nat} : n ∈ upTo a b ↔ a ≤ n ∧ n ≤ b := by
  rw [upTo, List.mem_range'_1]
  omega

theorem lt_of_mem_upTo {a b n m : Nat} (hn : n ∈ upTo a b) (hb : b < m) : n < m :=
  (mem_upTo.1 hn).2.trans_lt hb

theorem sweep_upTo {w a b : Nat} (hab : a ≤ b) (hb : b < 2 ^ w) :
    Sweep 1 (BitVec.ofNat w b) (BitVec.ofNat w a) ((upTo a b).map (BitVec.ofNat w)) := by
  obtain ⟨n, rfl⟩ := Nat.exists_eq_add_of_le hab
  rw [upTo, Nat.add_assoc, Nat.add_sub_cancel_left]
  exact sweep_up hb

theorem sweep_upTo_reverse {w a b : Nat} (hab : a ≤ b) (hb : b < 2 ^ w) :
    Sweep (-1) (BitVec.ofNat w a) (BitVec.ofNat w b) ((upTo a b).reverse.map (BitVec.ofNat w)) := by
  obtain ⟨n, rfl⟩ := Nat.exists_eq_add_of_le hab
  rw [upTo, Nat.add_assoc, Nat.add_sub_cancel_left]
  exact sweep_down hb

/-- R66: the Byte sent for a place. -/
def byteAt (P : Params) (fb : List Host.Cell) (a : Place) : Byte := xmit P (fbByte P fb (a.1.toNat * 16 + a.2.toNat))

theorem rectBytes_eq_map_places (P : Params) (fb : List Host.Cell) {r : Rect} (hx : r.xeb < 16) (hy : r.ye < 250) :
    rectBytes P fb r = (places (upTo r.ys r.ye) (upTo r.xsb r.xeb)).map (byteAt P fb) := by
  simp only [rectBytes, places, List.map_flatMap, List.flatMap_map, List.map_map]
  refine List.flatMap_congr fun j hj => List.map_congr_left fun i hi => ?_
  have hj : j % 2 ^ 16 = j := Nat.mod_eq_of_lt (lt_of_mem_upTo hj (hy.trans (by decide)))
  have hi : i % 2 ^ 8 = i := Nat.mod_eq_of_lt (lt_of_mem_upTo hi (hx.trans (by decide)))
  simp only [Function.comp_apply, byteAt, BitVec.toNat_ofNat, hj, hi]

theorem eraseBytes_eq_map_places :
    eraseBytes = (places (upTo 0 249).reverse (upTo 0 15)).map fun _ => 0xFF := by
  have hlen : (places (upTo 0 249).reverse (upTo 0 15)).length = 4000 := by
    rw [length_places, List.length_reverse, upTo, upTo, List.length_range', List.length_range']
  rw [List.map_const', hlen]
  rfl

/-- R65: with the default XMIT_INVERT the complement is sent. -/
theorem byteAt_of_lt (fb : List Host.Cell) {j i : Nat} (hj : j < 250) (hi : i < 16) :
    byteAt Config.params fb (BitVec.ofNat 16 j, BitVec.ofNat 8 i) = 255 - readByte fb (16 * j + i) := by
  have hj' : (BitVec.ofNat 16 j).toNat = j := Nat.mod_eq_of_lt (hj.trans (by decide))
  have hi' : (BitVec.ofNat 8 i).toNat = i := Nat.mod_eq_of_lt (hi.trans (by decide))
  rw [byteAt, hj', hi', xmit_fbByte _ _ (by omega), Nat.mul_comm j 16]
  rfl

/-! ### The observer after a refresh -/

theorem observe_dly (p : Panel) (d : Delay) : p.observe [.dly d] = p := rfl

/-- R182, R188: a full refresh whose stream follows the window of its entry mode. -/
theorem observe_fullRefresh {em : Byte} {l : List Place} (hin : ∀ a ∈ l, InPanel a)
    (hpath : let w := entryWindow (clampEntryMode em); Path (clampEntryMode em) w l (w.ys, w.xs) (w.ys, w.xs))
    (f : Place → Byte) (p : Panel) :
    let q := p.observe (Spec.fullRefresh Config.params em (l.map f))
    q.cur = overlay l f p.cur ∧ q.prev = overlay l f p.prev := by
  have hq : settled (p.observe (Spec.fullRefresh Config.params em (l.map f))) =
      pointedTo (entryWindow (clampEntryMode em))
        { p with em := clampEntryMode em, cur := overlay l f p.cur, prev := overlay l f p.prev } := by
    rw [fullRefresh_eq_commands, settled_observe_commands, repointed_of_not rfl, List.nil_append, List.append_assoc,
      List.append_assoc, List.foldl_append, obey_initFull, ← List.append_assoc, List.foldl_append,
      List.singleton_append, enteredMode, obey_bothStreams hin hpath]
    exact foldl_obey_unobserved (by simp [observedCommands]) rfl
  exact ⟨congrArg Panel.cur hq, congrArg Panel.prev hq⟩

/-- R185: a partial refresh whose stream follows the window of its rectangle. -/
theorem observe_updwin (fb : List Host.Cell) {r : Rect} {l : List Place} (hin : ∀ a ∈ l, InPanel a)
    (hpath : let w := r.window; Path 3 w l (w.ys, w.xs) (w.ys, w.xs))
    {f : Place → Byte} (hbytes : rectBytes Config.params fb r = l.map f) (p : Panel) :
    let q := p.observe (linkEvents (updwinRectSeq Config.params fb r))
    q.cur = overlay l f p.cur ∧ q.prev = overlay l f p.prev := by
  have hq : settled (p.observe (linkEvents (updwinRectSeq Config.params fb r))) =
      pointedTo r.window { p with em := 3, cur := overlay l f p.cur, prev := overlay l f p.prev } := by
    have hcommands : p.observe (linkEvents (updwinRectSeq Config.params fb r)) =
        p.observe (Spec.commands (Spec.initPart Config.params 3 ++ windowCommands r.window ++
          [(0x24, l.map f), (0x26, l.map f)] ++ [(0x22, [0x04]), (0x20, [])])) := by
      rw [linkEvents_updwinRectSeq, dual_eq, repointed_of_not rfl, hbytes]
      simp only [observe_append, observe_dly, commands_append, commands_cons, commands_nil, List.nil_append,
        List.append_nil]
    rw [hcommands, settled_observe_commands, List.foldl_append, List.foldl_append, List.foldl_append, obey_initPart,
      obey_windowCommands]
    change List.foldl obey (List.foldl obey (pointedTo r.window { p with em := 3 }) _) _ = _
    rw [obey_bothStreams hin hpath]
    exact foldl_obey_unobserved (by simp [observedCommands]) rfl
  exact ⟨congrArg Panel.cur hq, congrArg Panel.prev hq⟩

theorem trace_of_no_fault {i : Instr} {s t : State} (hl : isLink i = true) (hw : i.wellFormed = true)
    (ha : s.active = false) (hf : s.fault = false) (he : exec i s = .next t) (ht : t.fault = false) :
    ∃ l, t.trace = s.trace ++ l ∧
      ∀ p : Panel, p.observe l = p.observe (linkEvents (expand Config.params (latch i s))) := by
  have hc := completed_of_no_fault hl hw ha hf he ht
  obtain rfl : execUnder Config.params i s = t := Host.Outcome.next.inj (exec_eq i s ▸ he)
  obtain ⟨k, hk⟩ := link_keeps engineKeeps_traceGrows hl s
  have htrace : (execUnder Config.params i s).trace = s.trace ++ k.reverse := by
    rw [State.trace, State.trace, ← hk, List.reverse_append]
  refine ⟨k.reverse, htrace, fun p => ?_⟩
  have hevents := hc.trace
  rw [htrace, noPolls_append, List.append_cancel_left_eq] at hevents
  rw [← observe_noPolls, hevents]

/-- R186: a clipped rectangle has a row and a byte column. -/
theorem le_of_clipped {x y w h : Nat} {r : Rect} (hr : Spec.Clipped x y w h r) : r.xsb ≤ r.xeb ∧ r.ys ≤ r.ye := by
  obtain ⟨⟨hw, hh, hx, hy⟩, hxsb, hxeb, hys, hye⟩ := hr
  omega

theorem inPanel_of_mem_places {rows cols : List Nat} (hrows : ∀ j ∈ rows, j < 250) (hcols : ∀ i ∈ cols, i < 16) :
    ∀ a ∈ places rows cols, InPanel a := by
  intro a ha
  obtain ⟨hy, hx⟩ := (mem_places hrows hcols a).1 ha
  exact ⟨hrows _ hy, hcols _ hx⟩

theorem overlay_places {rows cols : List Nat} (hrows : ∀ j ∈ rows, j < 250) (hcols : ∀ i ∈ cols, i < 16)
    (f : Place → Byte) (ram : U16 → Byte → Byte) {j i : Nat} (hj : j < 250) (hi : i < 16) :
    overlay (places rows cols) f ram (BitVec.ofNat 16 j) (BitVec.ofNat 8 i) =
      if j ∈ rows ∧ i ∈ cols then f (BitVec.ofNat 16 j, BitVec.ofNat 8 i)
      else ram (BitVec.ofNat 16 j) (BitVec.ofNat 8 i) := by
  have hj' : (BitVec.ofNat 16 j).toNat = j := Nat.mod_eq_of_lt (hj.trans (by decide))
  have hi' : (BitVec.ofNat 8 i).toNat = i := Nat.mod_eq_of_lt (hi.trans (by decide))
  simp only [overlay, mem_places hrows hcols, hj', hi']

/-- Settles O57: in entry mode 3 the stream goes down the rows, and its Bytes are those of the framebuffer. -/
theorem updateReachesThePanel : Obligations.UpdateReachesThePanel := by
  intro s t p ha hf he ht
  obtain ⟨l, hl, hobs⟩ := trace_of_no_fault rfl rfl ha hf he ht
  have hrows (j : Nat) (hj : j ∈ upTo 0 249) : j < 250 := lt_of_mem_upTo hj (by decide)
  have hcols (i : Nat) (hi : i ∈ upTo 0 15) : i < 16 := lt_of_mem_upTo hi (by decide)
  have hpath : Path 3 (entryWindow 3) (places (upTo 0 249) (upTo 0 15)) (0, 0) (0, 0) :=
    path_rows (w := entryWindow 3) rfl (sweep_upTo (by decide) (by decide)) (sweep_upTo (by decide) (by decide))
  have himage : image Config.params s.fb = (places (upTo 0 249) (upTo 0 15)).map (byteAt Config.params s.fb) :=
    rectBytes_eq_map_places _ _ (r := { xsb := 0, xeb := 15, ys := 0, ye := 249 }) (by decide) (by decide)
  obtain ⟨hcur, hprev⟩ := observe_fullRefresh (em := 3) (inPanel_of_mem_places hrows hcols) hpath
    (byteAt Config.params s.fb) p
  have hevents : linkEvents (expand Config.params (latch .update s)) =
      Spec.fullRefresh Config.params 3 ((places (upTo 0 249) (upTo 0 15)).map (byteAt Config.params s.fb)) := by
    rw [expand_update, linkEvents_updateSeq, himage]
    rfl
  refine ⟨l, hl, fun y x hy hx => ?_⟩
  have hmem : y ∈ upTo 0 249 ∧ x ∈ upTo 0 15 := ⟨mem_upTo.2 (by omega), mem_upTo.2 (by omega)⟩
  simp only [hobs, hevents, hcur, hprev, overlay_places hrows hcols _ _ hy hx, if_pos hmem, byteAt_of_lt _ hy hx,
    and_self]

/-- Settles O58: in entry mode 1 the stream goes up the rows, and its Bytes are all 0xFF. -/
theorem eraseClearsThePanel : Obligations.EraseClearsThePanel := by
  intro s t p ha hf he ht
  obtain ⟨l, hl, hobs⟩ := trace_of_no_fault rfl rfl ha hf he ht
  have hrows (j : Nat) (hj : j ∈ (upTo 0 249).reverse) : j < 250 := lt_of_mem_upTo (List.mem_reverse.1 hj) (by decide)
  have hcols (i : Nat) (hi : i ∈ upTo 0 15) : i < 16 := lt_of_mem_upTo hi (by decide)
  have hpath : Path 1 (entryWindow 1) (places (upTo 0 249).reverse (upTo 0 15)) (249, 0) (249, 0) :=
    path_rows (w := entryWindow 1) rfl (sweep_upTo (by decide) (by decide))
      (sweep_upTo_reverse (by decide) (by decide))
  obtain ⟨hcur, hprev⟩ := observe_fullRefresh (em := 1) (inPanel_of_mem_places hrows hcols) hpath (fun _ => 0xFF) p
  have hevents : linkEvents (expand Config.params (latch .erase s)) =
      Spec.fullRefresh Config.params 1 ((places (upTo 0 249).reverse (upTo 0 15)).map fun _ => 0xFF) := by
    rw [expand_erase, linkEvents_eraseSeq, eraseBytes_eq_map_places]
  refine ⟨l, hl, fun y x hy hx => ?_⟩
  have hmem : y ∈ (upTo 0 249).reverse ∧ x ∈ upTo 0 15 :=
    ⟨List.mem_reverse.2 (mem_upTo.2 (by omega)), mem_upTo.2 (by omega)⟩
  simp only [hobs, hevents, hcur, hprev, overlay_places hrows hcols _ _ hy hx, if_pos hmem, and_self]

/-- Settles O59: in entry mode 3 the stream goes down the rows of the rectangle, and stays in it. -/
theorem updwinReachesItsRectangle : Obligations.UpdwinReachesItsRectangle := by
  intro x y w h r s t p hr ha hf he ht
  obtain ⟨l, hl, hobs⟩ := trace_of_no_fault rfl rfl ha hf he ht
  obtain ⟨hxeb, hys, hye⟩ := bounds_of_clipped hr
  obtain ⟨hxle, hyle⟩ : r.xsb ≤ r.xeb ∧ r.ys ≤ r.ye := le_of_clipped hr
  have hrows (j : Nat) (hj : j ∈ upTo r.ys r.ye) : j < 250 := lt_of_mem_upTo hj hye
  have hcols (i : Nat) (hi : i ∈ upTo r.xsb r.xeb) : i < 16 := lt_of_mem_upTo hi hxeb
  have hpath : Path 3 r.window (places (upTo r.ys r.ye) (upTo r.xsb r.xeb)) (r.window.ys, r.window.xs)
      (r.window.ys, r.window.xs) :=
    path_rows rfl (sweep_upTo hxle (hxeb.trans (by decide))) (sweep_upTo hyle (hye.trans (by decide)))
  obtain ⟨hcur, hprev⟩ := observe_updwin s.fb (inPanel_of_mem_places hrows hcols) hpath
    (rectBytes_eq_map_places Config.params s.fb hxeb hye) p
  refine ⟨l, hl, fun j i hj hi => ?_⟩
  have hmem : (j ∈ upTo r.ys r.ye ∧ i ∈ upTo r.xsb r.xeb) ↔ r.ys ≤ j ∧ j ≤ r.ye ∧ r.xsb ≤ i ∧ i ≤ r.xeb := by
    rw [mem_upTo, mem_upTo, and_assoc]
  simp only [hobs, expand_updwin _ s hr, hcur, hprev, overlay_places hrows hcols _ _ hj hi, hmem, byteAt_of_lt _ hj hi]
  split
  · exact ⟨rfl, rfl⟩
  · exact ⟨rfl, rfl⟩

end Sys2Proof.Proofs
end
